-- ==== Sys2Proof/Word.lean ====
section
/-!
DEFINITION. The word types of the block (spec/00_scope.md R8: every value is unsigned, bit 0 is the least
significant bit).
-/

namespace Sys2Proof

/-- A byte: a queue slot, an accumulator, a `cfg` register, an answer of the command port. -/
abbrev Byte := BitVec 8

/-- A command word or an event word (R65, R67). -/
abbrev Word16 := BitVec 16

/-- A counter of the frame registers `bitcnt` and `ones` (R14, R15). -/
abbrev Nibble := BitVec 4

/-- `zext_8` of one bit (R8). -/
def byteOfBit (b : Bool) : Byte := if b then 1 else 0

end Sys2Proof
end

