-- ==== Sys2Proof/Names.lean ====
section
/-!
DEFINITION. The names the spec gives: instances, roles, engine states, lines, edge modes, timer owners,
configuration registers, engines, events, error events, frames, and the words of the block's four code spaces.
The numeric codes of these names stand in Decode.lean.
-/

namespace Sys2Proof

/-- The two protocol instances (R2): `P` is PS/2, `X` is XT. -/
inductive Inst where
  | P | X
  deriving DecidableEq, Repr

/-- The role of an instance (R11). Code 3 is never held, so it has no constructor. -/
inductive Role where
  | none | host | device
  deriving DecidableEq, Repr

/-- The twenty engine states (R68). Codes 20 to 31 are never held, so they have no constructor. -/
inductive St where
  | idle | hostInhibit | prepStart | sendStart | prepBit | sendBit | prepParity | sendParity
  | prepStop | sendStop | holdoff | waitStart | getStart | waitBit | getBit | getParity
  | waitStop | waitAck | getAck | reset
  deriving DecidableEq, Repr

/-- A line's drive (R8, R20, R21): released, or driven low. -/
inductive Drive where
  | rel | low
  deriving DecidableEq, Repr

/-- The mode of a clock-edge detector (R23). Code 3 is never held. -/
inductive EdgeMode where
  | off | fall | rise
  deriving DecidableEq, Repr

/-- The owner of the shared timer (R22). -/
inductive Owner where
  | none | P | X | FG
  deriving DecidableEq, Repr

/-- The seven open-collector lines (R80). -/
inductive Line where
  | ps2Clk | ps2Data | xtClk | xtData | parStrobe | parReset | modeSel
  deriving DecidableEq, Repr

/-- The thirteen configuration registers `cfg[0..12]`, by name (R29). -/
inductive CfgReg where
  | ps2HalfCycleUs | ps2HoldoffTicks | ps2hInhibitUs | ps2hBitTimeoutUs | ps2hAckUs
  | xtStartUs | xtHalfCycleUs | xtHoldoffTicks | xtResetTicks | xthBitTimeoutUs
  | xthResetTicks | xtBatCode | options
  deriving DecidableEq, Repr

/-- The four engines (R1, R69). -/
inductive Engine where
  | p2h | p2d | xth | xtd
  deriving DecidableEq, Repr

/-- The two events that select a transition (R69). -/
inductive Ev where
  | edge | tmr
  deriving DecidableEq, Repr

/-- The direction of a queue (R24). -/
inductive Dir where
  | tx | rx
  deriving DecidableEq, Repr

/-- A notification that can be delivered (R246). -/
inductive Notification where
  | edge (i : Inst)
  | timer
  deriving DecidableEq, Repr

/-- The five error events with the information a trace records (R240). -/
inductive ErrorEvent where
  | abort (st : St)
  | timeout (st : St)
  | overflow (i : Inst) (d : Dir)
  | noAck
  | resetRequest
  deriving DecidableEq, Repr

/-- The three wire frames (R60, R61, R62). -/
inductive FrameKind where
  | ps2D2h | ps2H2d | xtD2h
  deriving DecidableEq, Repr

/-- A word of one of the block's code spaces. `command` is a word on the command port (R65); `event` is an event
word of unit 15 (R67); `key` is a dispatch key (R69); `frame` is a wire frame, its symbols in wire order (R60 to
R62), with the half period `h` with which the far end plays it (R73). -/
inductive Code where
  | command (w : Word16)
  | event (w : Word16)
  | key (k : Byte)
  | frame (f : FrameKind) (symbols : List Bool) (h : Nat)
  deriving DecidableEq, Repr

/-- Why the decoder rejects a word (R70). -/
inductive DecodeError where
  /-- A command unit that R66 does not list (7 to 15). -/
  | unknownUnit
  /-- An operation code that R66 or R67 does not list for its unit. -/
  | unknownOp
  /-- A nonzero bit in an operand field that must be zero. -/
  | operandNotZero
  /-- An event word whose unit is not 15. -/
  | notAnEvent
  /-- A dispatch key without a rule (R70 (b)). -/
  | noRuleForKey
  /-- A symbol list that is not a frame of its kind (wrong length, start, parity, stop or acknowledge symbol). -/
  | badFrame
  deriving DecidableEq, Repr

end Sys2Proof
end

