-- ==== Sys2Proof/Config.lean ====
section
/-!
DEFINITION. What one implementation fixes (spec/00_scope.md R7): the queue size, the reset values of the
configuration registers, what an unwritten queue slot reads as, and the half periods the host's fetch interface
plays a frame with. No value of the block is left open by the spec, so there is no free value here.
-/

namespace Sys2Proof.Config

/-- The value R7 takes for `QUEUE_SLOTS`, which the machine right after reset has. The meanings read the parameter from
`State.slots` and hold for every `N` (notes/assumptions/15.md). -/
def queueSlots : Nat := 16

/-- What a queue slot that no list entry names reads as. DESIGN CHOICE, unsafe (notes/assumptions/1.md): R30 leaves
the slots unspecified at reset and no rule reads one that no `push` has written. -/
def slotUnwritten : Byte := 0

/-- The reset column of R29, with the values of R7. -/
def cfgReset : CfgReg → Byte
  | .ps2HalfCycleUs => 40
  | .ps2HoldoffTicks => 53
  | .ps2hInhibitUs => 100
  | .ps2hBitTimeoutUs => 100
  | .ps2hAckUs => 50
  | .xtStartUs => 100
  | .xtHalfCycleUs => 50
  | .xtHoldoffTicks => 10
  | .xtResetTicks => 60
  | .xthBitTimeoutUs => 200
  | .xthResetTicks => 100
  | .xtBatCode => 0xAA
  | .options => 0

/-- The half period a PS/2 frame word without one is played with: the 40 of spec/95_test_vectors.md V-H1. DESIGN
CHOICE (notes/assumptions/12.md); a frame in `script` carries its own. -/
def framePs2Half : Nat := 40

/-- The unclocked start condition of the XT frame that R73 writes out: `ENV.WAIT 100`. -/
def frameXtStart : Nat := 100

end Sys2Proof.Config
end

