-- ==== Sys2Proof/Syntax.lean ====
section
/-!
DEFINITION. The operations of the block: one constructor per row of spec/opcode_table.json, 25 command words (R66),
5 event words (R67), 45 dispatch keys (R69) and 3 wire frames (R60 to R62). Operands are kept as the word has them;
their legal ranges are WellFormed.lean's, and what an illegal one does is the operation's own rule.
-/

namespace Sys2Proof

/-- One operation of the block. -/
inductive Instr where
  -- command words (R66)
  /-- `LINE.ASSERT` (R87). -/
  | lineAssert (l : Byte)
  /-- `LINE.RELEASE` (R88). -/
  | lineRelease (l : Byte)
  /-- `LINE.READ` (R89). -/
  | lineRead (l : Byte)
  /-- `TMR.ARM` (R101). -/
  | tmrArm (d : Byte)
  /-- `TMR.DISABLE` (R102). -/
  | tmrDisable
  /-- `TMR.STATUS` (R103). -/
  | tmrStatus
  /-- `EDGE.SET` (R104). -/
  | edgeSet (i : Inst) (m : BitVec 2)
  /-- `EDGE.STATUS` (R105). -/
  | edgeStatus (i : Inst)
  /-- `P.INIT` (R211). -/
  | pInit (rr : Byte)
  /-- `P.PUT` (R212). -/
  | pPut (b : Byte)
  /-- `P.GET` (R213). -/
  | pGet
  /-- `P.RXCOUNT` (R214). -/
  | pRxcount
  /-- `P.TXCOUNT` (R215). -/
  | pTxcount
  /-- `P.RESET` (R216). -/
  | pReset
  /-- `P.STATE` (R217). -/
  | pState
  /-- `X.INIT` (R211). -/
  | xInit (rr : Byte)
  /-- `X.PUT` (R212). -/
  | xPut (b : Byte)
  /-- `X.GET` (R213). -/
  | xGet
  /-- `X.RXCOUNT` (R214). -/
  | xRxcount
  /-- `X.TXCOUNT` (R215). -/
  | xTxcount
  /-- `X.RESET` (R216). -/
  | xReset
  /-- `X.STATE` (R217). -/
  | xState
  /-- `X.HRESET` (R218). -/
  | xHreset
  /-- `CFG.WR` (R219). -/
  | cfgWr (r : BitVec 4) (v : Byte)
  /-- `CFG.RD` (R220). -/
  | cfgRd (r : BitVec 4)
  -- event words (R67)
  /-- `ENV.TICK` (R93). -/
  | envTick
  /-- `ENV.LOW` (R106). -/
  | envLow (l : BitVec 4)
  /-- `ENV.REL` (R107). -/
  | envRel (l : BitVec 4)
  /-- `IRQ.EDGE` (R257). -/
  | irqEdge (i : Inst)
  /-- `IRQ.TMR` (R258). -/
  | irqTmr
  -- dispatch keys (R69)
  /-- `P2H.IDLE_EDGE` (R113). -/
  | p2hIdleEdge
  /-- `P2H.PREP_START_TMR` (R121). -/
  | p2hPrepStartTmr
  /-- `P2H.SEND_START_EDGE` (R122). -/
  | p2hSendStartEdge
  /-- `P2H.SEND_BIT_EDGE` (R123). -/
  | p2hSendBitEdge
  /-- `P2H.SEND_BIT_TMR` (R126). -/
  | p2hSendBitTmr
  /-- `P2H.SEND_PARITY_EDGE` (R124). -/
  | p2hSendParityEdge
  /-- `P2H.SEND_PARITY_TMR` (R127). -/
  | p2hSendParityTmr
  /-- `P2H.SEND_STOP_EDGE` (R125). -/
  | p2hSendStopEdge
  /-- `P2H.SEND_STOP_TMR` (R128). -/
  | p2hSendStopTmr
  /-- `P2H.GET_BIT_EDGE` (R114). -/
  | p2hGetBitEdge
  /-- `P2H.GET_BIT_TMR` (R118). -/
  | p2hGetBitTmr
  /-- `P2H.GET_PARITY_EDGE` (R115). -/
  | p2hGetParityEdge
  /-- `P2H.GET_PARITY_TMR` (R119). -/
  | p2hGetParityTmr
  /-- `P2H.WAIT_STOP_EDGE` (R116). -/
  | p2hWaitStopEdge
  /-- `P2H.WAIT_STOP_TMR` (R120). -/
  | p2hWaitStopTmr
  /-- `P2H.GET_ACK_TMR` (R117). -/
  | p2hGetAckTmr
  /-- `P2D.IDLE_EDGE` (R144). -/
  | p2dIdleEdge
  /-- `P2D.HOST_INHIBIT_EDGE` (R145). -/
  | p2dHostInhibitEdge
  /-- `P2D.PREP_START_TMR` (R146). -/
  | p2dPrepStartTmr
  /-- `P2D.SEND_START_TMR` (R147). -/
  | p2dSendStartTmr
  /-- `P2D.PREP_BIT_TMR` (R148). -/
  | p2dPrepBitTmr
  /-- `P2D.SEND_BIT_TMR` (R149). -/
  | p2dSendBitTmr
  /-- `P2D.PREP_PARITY_TMR` (R150). -/
  | p2dPrepParityTmr
  /-- `P2D.SEND_PARITY_TMR` (R151). -/
  | p2dSendParityTmr
  /-- `P2D.PREP_STOP_TMR` (R152). -/
  | p2dPrepStopTmr
  /-- `P2D.SEND_STOP_TMR` (R153). -/
  | p2dSendStopTmr
  /-- `P2D.HOLDOFF_TMR` (R154). -/
  | p2dHoldoffTmr
  /-- `P2D.WAIT_START_TMR` (R155). -/
  | p2dWaitStartTmr
  /-- `P2D.GET_START_TMR` (R156). -/
  | p2dGetStartTmr
  /-- `P2D.WAIT_BIT_TMR` (R157). -/
  | p2dWaitBitTmr
  /-- `P2D.GET_BIT_TMR` (R158). -/
  | p2dGetBitTmr
  /-- `P2D.GET_PARITY_TMR` (R159). -/
  | p2dGetParityTmr
  /-- `P2D.WAIT_STOP_TMR` (R160). -/
  | p2dWaitStopTmr
  /-- `P2D.WAIT_ACK_TMR` (R161). -/
  | p2dWaitAckTmr
  /-- `P2D.GET_ACK_TMR` (R162). -/
  | p2dGetAckTmr
  /-- `XTH.IDLE_EDGE` (R182). -/
  | xthIdleEdge
  /-- `XTH.GET_BIT_EDGE` (R183). -/
  | xthGetBitEdge
  /-- `XTH.GET_BIT_TMR` (R184). -/
  | xthGetBitTmr
  /-- `XTH.RESET_TMR` (R185). -/
  | xthResetTmr
  /-- `XTD.IDLE_EDGE` (R194). -/
  | xtdIdleEdge
  /-- `XTD.HOST_INHIBIT_TMR` (R199). -/
  | xtdHostInhibitTmr
  /-- `XTD.SEND_START_TMR` (R195). -/
  | xtdSendStartTmr
  /-- `XTD.PREP_BIT_TMR` (R197). -/
  | xtdPrepBitTmr
  /-- `XTD.SEND_BIT_TMR` (R196). -/
  | xtdSendBitTmr
  /-- `XTD.HOLDOFF_TMR` (R198). -/
  | xtdHoldoffTmr
  -- wire frames (R60, R61, R62)
  /-- `FRAME.PS2_D2H` (R60). -/
  | framePs2D2h (v : Byte) (h : Nat)
  /-- `FRAME.PS2_H2D` (R61). -/
  | framePs2H2d (v : Byte) (h : Nat)
  /-- `FRAME.XT_D2H` (R62). -/
  | frameXtD2h (v : Byte) (h : Nat)
  deriving DecidableEq, Repr

end Sys2Proof
end

