-- ==== Sys2Proof/Decode.lean ====
section
/-!
DEFINITION. The decoder and the encoder of the block's code spaces (spec/30_encoding.md): command words (R65, R66),
event words (R67), dispatch keys (R69) and wire frames (R60 to R62), with the numeric codes of the names (R11, R22,
R23, R68) and the textual mnemonics (R72). The decoder is total and rejects by a named `DecodeError`.
-/

namespace Sys2Proof

/-! ## Numeric codes of the names -/

/-- The 5-bit code of an engine state (R68). -/
def St.code : St → BitVec 5
  | .idle => 0
  | .hostInhibit => 1
  | .prepStart => 2
  | .sendStart => 3
  | .prepBit => 4
  | .sendBit => 5
  | .prepParity => 6
  | .sendParity => 7
  | .prepStop => 8
  | .sendStop => 9
  | .holdoff => 10
  | .waitStart => 11
  | .getStart => 12
  | .waitBit => 13
  | .getBit => 14
  | .getParity => 15
  | .waitStop => 16
  | .waitAck => 17
  | .getAck => 18
  | .reset => 19

/-- The engine state of a code; codes 20 to 31 are reserved (R68). -/
def St.ofCode (c : BitVec 5) : Option St :=
  match c.toNat with
  | 0 => some .idle
  | 1 => some .hostInhibit
  | 2 => some .prepStart
  | 3 => some .sendStart
  | 4 => some .prepBit
  | 5 => some .sendBit
  | 6 => some .prepParity
  | 7 => some .sendParity
  | 8 => some .prepStop
  | 9 => some .sendStop
  | 10 => some .holdoff
  | 11 => some .waitStart
  | 12 => some .getStart
  | 13 => some .waitBit
  | 14 => some .getBit
  | 15 => some .getParity
  | 16 => some .waitStop
  | 17 => some .waitAck
  | 18 => some .getAck
  | 19 => some .reset
  | _ => none

/-- The 2-bit code of a role (R11). -/
def Role.code : Role → BitVec 2
  | .none => 0
  | .host => 1
  | .device => 2

/-- The 2-bit code of an edge mode (R23). -/
def EdgeMode.code : EdgeMode → BitVec 2
  | .off => 0
  | .fall => 1
  | .rise => 2

/-- The 2-bit code of a timer owner (R22). -/
def Owner.code : Owner → BitVec 2
  | .none => 0
  | .P => 1
  | .X => 2
  | .FG => 3

/-- The instance bit of an operand (R66): 0 is `P`, 1 is `X`. -/
def Inst.code : Inst → BitVec 1
  | .P => 0
  | .X => 1

/-- The instance of an operand bit (R66). -/
def Inst.ofBit (b : Bool) : Inst := if b then .X else .P

/-- The 2-bit engine field of a dispatch key (R69). -/
def Engine.code : Engine → BitVec 2
  | .p2h => 0
  | .p2d => 1
  | .xth => 2
  | .xtd => 3

/-- The engine of a key's two top bits (R69). -/
def Engine.ofCode (c : BitVec 2) : Engine :=
  match c.toNat with
  | 0 => .p2h
  | 1 => .p2d
  | 2 => .xth
  | _ => .xtd

/-- The event bit of a dispatch key (R69). -/
def Ev.code : Ev → BitVec 1
  | .edge => 0
  | .tmr => 1

/-- The event of a key's bit 0 (R69). -/
def Ev.ofBit (b : Bool) : Ev := if b then .tmr else .edge

/-- The trace code of an error event (R240). -/
def ErrorEvent.code : ErrorEvent → Nat
  | .abort _ => 1
  | .timeout _ => 2
  | .overflow _ _ => 3
  | .noAck => 4
  | .resetRequest => 5

/-! ## Command words -/

/-- An operation whose operand byte must be 0 (R70 (a)). -/
def noOperand (x : Byte) (i : Instr) : Except DecodeError Instr :=
  if x = 0 then .ok i else .error .operandNotZero

/-- Unit 0, the line controller (R66). -/
def decodeLineUnit (op : BitVec 4) (x : Byte) : Except DecodeError Instr :=
  match op.toNat with
  | 0 => .ok (.lineAssert x)
  | 1 => .ok (.lineRelease x)
  | 2 => .ok (.lineRead x)
  | _ => .error .unknownOp

/-- Unit 1, the timer (R66). -/
def decodeTimerUnit (op : BitVec 4) (x : Byte) : Except DecodeError Instr :=
  match op.toNat with
  | 0 => .ok (.tmrArm x)
  | 1 => noOperand x .tmrDisable
  | 2 => noOperand x .tmrStatus
  | _ => .error .unknownOp

/-- Unit 2, the edge detectors (R66): instance in operand bit 0, mode in bits 2:1. -/
def decodeEdgeUnit (op : BitVec 4) (x : Byte) : Except DecodeError Instr :=
  match op.toNat with
  | 0 =>
    if x.extractLsb' 3 5 = 0 then .ok (.edgeSet (Inst.ofBit (x.getLsbD 0)) (x.extractLsb' 1 2))
    else .error .operandNotZero
  | 1 => if x.extractLsb' 1 7 = 0 then .ok (.edgeStatus (Inst.ofBit (x.getLsbD 0))) else .error .operandNotZero
  | _ => .error .unknownOp

/-- Unit 3, instance `P` (R66). -/
def decodePUnit (op : BitVec 4) (x : Byte) : Except DecodeError Instr :=
  match op.toNat with
  | 0 => .ok (.pInit x)
  | 1 => .ok (.pPut x)
  | 2 => noOperand x .pGet
  | 3 => noOperand x .pRxcount
  | 4 => noOperand x .pTxcount
  | 5 => noOperand x .pReset
  | 6 => noOperand x .pState
  | _ => .error .unknownOp

/-- Unit 4, instance `X` (R66). -/
def decodeXUnit (op : BitVec 4) (x : Byte) : Except DecodeError Instr :=
  match op.toNat with
  | 0 => .ok (.xInit x)
  | 1 => .ok (.xPut x)
  | 2 => noOperand x .xGet
  | 3 => noOperand x .xRxcount
  | 4 => noOperand x .xTxcount
  | 5 => noOperand x .xReset
  | 6 => noOperand x .xState
  | 7 => noOperand x .xHreset
  | _ => .error .unknownOp

/-- A word on the command port, `unit[15:12] || op[11:8] || operand[7:0]` (R65, R66, R70 (a)). A word of unit 15 is
never accepted there. -/
def decodeCommand (w : Word16) : Except DecodeError Instr :=
  match (w.extractLsb' 12 4).toNat with
  | 0 => decodeLineUnit (w.extractLsb' 8 4) (w.extractLsb' 0 8)
  | 1 => decodeTimerUnit (w.extractLsb' 8 4) (w.extractLsb' 0 8)
  | 2 => decodeEdgeUnit (w.extractLsb' 8 4) (w.extractLsb' 0 8)
  | 3 => decodePUnit (w.extractLsb' 8 4) (w.extractLsb' 0 8)
  | 4 => decodeXUnit (w.extractLsb' 8 4) (w.extractLsb' 0 8)
  | 5 => .ok (.cfgWr (w.extractLsb' 8 4) (w.extractLsb' 0 8))
  | 6 => noOperand (w.extractLsb' 0 8) (.cfgRd (w.extractLsb' 8 4))
  | _ => .error .unknownUnit

/-! ## Event words -/

/-- An event word of unit 15 (R67). -/
def decodeEvent (w : Word16) : Except DecodeError Instr :=
  if w.extractLsb' 12 4 ≠ 15 then .error .notAnEvent
  else
    match (w.extractLsb' 8 4).toNat with
    | 0 => noOperand (w.extractLsb' 0 8) .envTick
    | 1 => if w.extractLsb' 4 4 = 0 then .ok (.envLow (w.extractLsb' 0 4)) else .error .operandNotZero
    | 2 => if w.extractLsb' 4 4 = 0 then .ok (.envRel (w.extractLsb' 0 4)) else .error .operandNotZero
    | 3 => if w.extractLsb' 1 7 = 0 then .ok (.irqEdge (Inst.ofBit (w.getLsbD 0))) else .error .operandNotZero
    | 4 => noOperand (w.extractLsb' 0 8) .irqTmr
    | _ => .error .unknownOp

/-! ## Dispatch keys -/

/-- The key of a triple: `engine[7:6] || st[5:1] || event[0]` (R69). -/
def dispatchKey (e : Engine) (c : St) (v : Ev) : Byte := e.code ++ c.code ++ v.code

/-- The 45 triples that have a rule (R69); every other triple has none (R70 (b)). -/
def transitionOf : Engine → St → Ev → Option Instr
  | .p2h, .idle, .edge => some .p2hIdleEdge
  | .p2h, .prepStart, .tmr => some .p2hPrepStartTmr
  | .p2h, .sendStart, .edge => some .p2hSendStartEdge
  | .p2h, .sendBit, .edge => some .p2hSendBitEdge
  | .p2h, .sendBit, .tmr => some .p2hSendBitTmr
  | .p2h, .sendParity, .edge => some .p2hSendParityEdge
  | .p2h, .sendParity, .tmr => some .p2hSendParityTmr
  | .p2h, .sendStop, .edge => some .p2hSendStopEdge
  | .p2h, .sendStop, .tmr => some .p2hSendStopTmr
  | .p2h, .getBit, .edge => some .p2hGetBitEdge
  | .p2h, .getBit, .tmr => some .p2hGetBitTmr
  | .p2h, .getParity, .edge => some .p2hGetParityEdge
  | .p2h, .getParity, .tmr => some .p2hGetParityTmr
  | .p2h, .waitStop, .edge => some .p2hWaitStopEdge
  | .p2h, .waitStop, .tmr => some .p2hWaitStopTmr
  | .p2h, .getAck, .tmr => some .p2hGetAckTmr
  | .p2d, .idle, .edge => some .p2dIdleEdge
  | .p2d, .hostInhibit, .edge => some .p2dHostInhibitEdge
  | .p2d, .prepStart, .tmr => some .p2dPrepStartTmr
  | .p2d, .sendStart, .tmr => some .p2dSendStartTmr
  | .p2d, .prepBit, .tmr => some .p2dPrepBitTmr
  | .p2d, .sendBit, .tmr => some .p2dSendBitTmr
  | .p2d, .prepParity, .tmr => some .p2dPrepParityTmr
  | .p2d, .sendParity, .tmr => some .p2dSendParityTmr
  | .p2d, .prepStop, .tmr => some .p2dPrepStopTmr
  | .p2d, .sendStop, .tmr => some .p2dSendStopTmr
  | .p2d, .holdoff, .tmr => some .p2dHoldoffTmr
  | .p2d, .waitStart, .tmr => some .p2dWaitStartTmr
  | .p2d, .getStart, .tmr => some .p2dGetStartTmr
  | .p2d, .waitBit, .tmr => some .p2dWaitBitTmr
  | .p2d, .getBit, .tmr => some .p2dGetBitTmr
  | .p2d, .getParity, .tmr => some .p2dGetParityTmr
  | .p2d, .waitStop, .tmr => some .p2dWaitStopTmr
  | .p2d, .waitAck, .tmr => some .p2dWaitAckTmr
  | .p2d, .getAck, .tmr => some .p2dGetAckTmr
  | .xth, .idle, .edge => some .xthIdleEdge
  | .xth, .getBit, .edge => some .xthGetBitEdge
  | .xth, .getBit, .tmr => some .xthGetBitTmr
  | .xth, .reset, .tmr => some .xthResetTmr
  | .xtd, .idle, .edge => some .xtdIdleEdge
  | .xtd, .hostInhibit, .tmr => some .xtdHostInhibitTmr
  | .xtd, .sendStart, .tmr => some .xtdSendStartTmr
  | .xtd, .prepBit, .tmr => some .xtdPrepBitTmr
  | .xtd, .sendBit, .tmr => some .xtdSendBitTmr
  | .xtd, .holdoff, .tmr => some .xtdHoldoffTmr
  | _, _, _ => none

/-- The transition a dispatch key selects (R69, R70 (b)). -/
def decodeKey (k : Byte) : Option Instr :=
  match St.ofCode (k.extractLsb' 1 5) with
  | some c => transitionOf (Engine.ofCode (k.extractLsb' 6 2)) c (Ev.ofBit (k.getLsbD 0))
  | none => none

/-! ## Wire frames -/

/-- The data symbols of a byte, D0 first (R46, R60). -/
def dataSymbols (v : Byte) : List Bool :=
  [v.getLsbD 0, v.getLsbD 1, v.getLsbD 2, v.getLsbD 3, v.getLsbD 4, v.getLsbD 5, v.getLsbD 6, v.getLsbD 7]

/-- The number of 1 bits (R8). -/
def popcount (v : Byte) : Nat := (dataSymbols v).count true

/-- The parity symbol of a byte: 1 if it has an even number of ones (R60, R64). -/
def oddParity (v : Byte) : Bool := popcount v % 2 == 0

/-- The byte whose data symbols are the eight given, D0 first. -/
def byteOfSymbols (a b c d e f g h : Bool) : Byte :=
  BitVec.ofBool h ++ BitVec.ofBool g ++ BitVec.ofBool f ++ BitVec.ofBool e
    ++ BitVec.ofBool d ++ BitVec.ofBool c ++ BitVec.ofBool b ++ BitVec.ofBool a

/-- A frame of its kind, from its symbols in wire order (R60, R61, R62). -/
def decodeFrame (k : FrameKind) (symbols : List Bool) (half : Nat) : Except DecodeError Instr :=
  match k, symbols with
  | .ps2D2h, [s, a, b, c, d, e, f, g, h, p, t] =>
    if s = false ∧ p = oddParity (byteOfSymbols a b c d e f g h) ∧ t = true then
      .ok (.framePs2D2h (byteOfSymbols a b c d e f g h) half)
    else .error .badFrame
  | .ps2H2d, [s, a, b, c, d, e, f, g, h, p, t, k] =>
    if s = false ∧ p = oddParity (byteOfSymbols a b c d e f g h) ∧ t = true ∧ k = false then
      .ok (.framePs2H2d (byteOfSymbols a b c d e f g h) half)
    else .error .badFrame
  | .xtD2h, [a, b, c, d, e, f, g, h] => .ok (.frameXtD2h (byteOfSymbols a b c d e f g h) half)
  | _, _ => .error .badFrame

/-! ## The whole decoder and the host's entry -/

/-- The operation a word of any code space stands for, or why it stands for none. -/
def decode : Code → Except DecodeError Instr
  | .command w => decodeCommand w
  | .event w => decodeEvent w
  | .key k =>
    match decodeKey k with
    | some i => .ok i
    | none => .error .noRuleForKey
  | .frame f symbols h => decodeFrame f symbols h

/-- The symbols of an `n`-bit frame pattern read as a number: the first symbol is the highest bit. -/
def symbolsOfNat : Nat → Nat → List Bool
  | 0, _ => []
  | n + 1, w => w.testBit n :: symbolsOfNat n w

/-- The code space a word of the opcode table belongs to, by its width: 8 bits is a dispatch key, 16 bits an event
word (unit 15) or a command word, 11 and 12 bits the PS/2 frames. The 8 symbols of the XT frame have the width of a
dispatch key and are not told apart from one here (notes/assumptions/13.md). -/
def codeOfTableWord (nbits w : Nat) : Option Code :=
  match nbits with
  | 8 => some (.key (BitVec.ofNat 8 w))
  | 11 => some (.frame .ps2D2h (symbolsOfNat 11 w) Config.framePs2Half)
  | 12 => some (.frame .ps2H2d (symbolsOfNat 12 w) Config.framePs2Half)
  | 16 =>
    if (w / 4096) % 16 = 15 then some (.event (BitVec.ofNat 16 w)) else some (.command (BitVec.ofNat 16 w))
  | _ => none

/-- The operation the decoder reads from a word of the opcode table. -/
def decodeTableWord (nbits w : Nat) : Option Instr :=
  match codeOfTableWord nbits w with
  | some c =>
    match decode c with
    | .ok i => some i
    | .error _ => none
  | none => none

/-! ## The encoder -/

/-- The command word of a unit and operation code (first byte) and an operand byte (R65). -/
def commandWord (unitOp : Byte) (x : Byte) : Code := .command (unitOp ++ x)

/-- The words of an operation, written from R66, R67, R69 and R60 to R62. -/
def encode : Instr → Code
  | .lineAssert l => commandWord 0x00 l
  | .lineRelease l => commandWord 0x01 l
  | .lineRead l => commandWord 0x02 l
  | .tmrArm d => commandWord 0x10 d
  | .tmrDisable => commandWord 0x11 0
  | .tmrStatus => commandWord 0x12 0
  | .edgeSet i m => commandWord 0x20 ((0 : BitVec 5) ++ m ++ i.code)
  | .edgeStatus i => commandWord 0x21 ((0 : BitVec 7) ++ i.code)
  | .pInit rr => commandWord 0x30 rr
  | .pPut b => commandWord 0x31 b
  | .pGet => commandWord 0x32 0
  | .pRxcount => commandWord 0x33 0
  | .pTxcount => commandWord 0x34 0
  | .pReset => commandWord 0x35 0
  | .pState => commandWord 0x36 0
  | .xInit rr => commandWord 0x40 rr
  | .xPut b => commandWord 0x41 b
  | .xGet => commandWord 0x42 0
  | .xRxcount => commandWord 0x43 0
  | .xTxcount => commandWord 0x44 0
  | .xReset => commandWord 0x45 0
  | .xState => commandWord 0x46 0
  | .xHreset => commandWord 0x47 0
  | .cfgWr r v => .command ((5 : BitVec 4) ++ r ++ v)
  | .cfgRd r => .command ((6 : BitVec 4) ++ r ++ (0 : Byte))
  | .envTick => .event 0xF000
  | .envLow l => .event ((0xF10 : BitVec 12) ++ l)
  | .envRel l => .event ((0xF20 : BitVec 12) ++ l)
  | .irqEdge i => .event ((0x7980 : BitVec 15) ++ i.code)
  | .irqTmr => .event 0xF400
  | .p2hIdleEdge => .key 0x00
  | .p2hPrepStartTmr => .key 0x05
  | .p2hSendStartEdge => .key 0x06
  | .p2hSendBitEdge => .key 0x0A
  | .p2hSendBitTmr => .key 0x0B
  | .p2hSendParityEdge => .key 0x0E
  | .p2hSendParityTmr => .key 0x0F
  | .p2hSendStopEdge => .key 0x12
  | .p2hSendStopTmr => .key 0x13
  | .p2hGetBitEdge => .key 0x1C
  | .p2hGetBitTmr => .key 0x1D
  | .p2hGetParityEdge => .key 0x1E
  | .p2hGetParityTmr => .key 0x1F
  | .p2hWaitStopEdge => .key 0x20
  | .p2hWaitStopTmr => .key 0x21
  | .p2hGetAckTmr => .key 0x25
  | .p2dIdleEdge => .key 0x40
  | .p2dHostInhibitEdge => .key 0x42
  | .p2dPrepStartTmr => .key 0x45
  | .p2dSendStartTmr => .key 0x47
  | .p2dPrepBitTmr => .key 0x49
  | .p2dSendBitTmr => .key 0x4B
  | .p2dPrepParityTmr => .key 0x4D
  | .p2dSendParityTmr => .key 0x4F
  | .p2dPrepStopTmr => .key 0x51
  | .p2dSendStopTmr => .key 0x53
  | .p2dHoldoffTmr => .key 0x55
  | .p2dWaitStartTmr => .key 0x57
  | .p2dGetStartTmr => .key 0x59
  | .p2dWaitBitTmr => .key 0x5B
  | .p2dGetBitTmr => .key 0x5D
  | .p2dGetParityTmr => .key 0x5F
  | .p2dWaitStopTmr => .key 0x61
  | .p2dWaitAckTmr => .key 0x63
  | .p2dGetAckTmr => .key 0x65
  | .xthIdleEdge => .key 0x80
  | .xthGetBitEdge => .key 0x9C
  | .xthGetBitTmr => .key 0x9D
  | .xthResetTmr => .key 0xA7
  | .xtdIdleEdge => .key 0xC0
  | .xtdHostInhibitTmr => .key 0xC3
  | .xtdSendStartTmr => .key 0xC7
  | .xtdPrepBitTmr => .key 0xC9
  | .xtdSendBitTmr => .key 0xCB
  | .xtdHoldoffTmr => .key 0xD5
  | .framePs2D2h v h => .frame .ps2D2h ([false] ++ dataSymbols v ++ [oddParity v, true]) h
  | .framePs2H2d v h => .frame .ps2H2d ([false] ++ dataSymbols v ++ [oddParity v, true, false]) h
  | .frameXtD2h v h => .frame .xtD2h (dataSymbols v) h

/-! ## Textual syntax -/

/-- The mnemonic of an operation, as spec/opcode_table.json spells it (R72). -/
def mnemonic : Instr → String
  | .lineAssert _ => "LINE.ASSERT"
  | .lineRelease _ => "LINE.RELEASE"
  | .lineRead _ => "LINE.READ"
  | .tmrArm _ => "TMR.ARM"
  | .tmrDisable => "TMR.DISABLE"
  | .tmrStatus => "TMR.STATUS"
  | .edgeSet _ _ => "EDGE.SET"
  | .edgeStatus _ => "EDGE.STATUS"
  | .pInit _ => "P.INIT"
  | .pPut _ => "P.PUT"
  | .pGet => "P.GET"
  | .pRxcount => "P.RXCOUNT"
  | .pTxcount => "P.TXCOUNT"
  | .pReset => "P.RESET"
  | .pState => "P.STATE"
  | .xInit _ => "X.INIT"
  | .xPut _ => "X.PUT"
  | .xGet => "X.GET"
  | .xRxcount => "X.RXCOUNT"
  | .xTxcount => "X.TXCOUNT"
  | .xReset => "X.RESET"
  | .xState => "X.STATE"
  | .xHreset => "X.HRESET"
  | .cfgWr _ _ => "CFG.WR"
  | .cfgRd _ => "CFG.RD"
  | .envTick => "ENV.TICK"
  | .envLow _ => "ENV.LOW"
  | .envRel _ => "ENV.REL"
  | .irqEdge _ => "IRQ.EDGE"
  | .irqTmr => "IRQ.TMR"
  | .p2hIdleEdge => "P2H.IDLE_EDGE"
  | .p2hPrepStartTmr => "P2H.PREP_START_TMR"
  | .p2hSendStartEdge => "P2H.SEND_START_EDGE"
  | .p2hSendBitEdge => "P2H.SEND_BIT_EDGE"
  | .p2hSendBitTmr => "P2H.SEND_BIT_TMR"
  | .p2hSendParityEdge => "P2H.SEND_PARITY_EDGE"
  | .p2hSendParityTmr => "P2H.SEND_PARITY_TMR"
  | .p2hSendStopEdge => "P2H.SEND_STOP_EDGE"
  | .p2hSendStopTmr => "P2H.SEND_STOP_TMR"
  | .p2hGetBitEdge => "P2H.GET_BIT_EDGE"
  | .p2hGetBitTmr => "P2H.GET_BIT_TMR"
  | .p2hGetParityEdge => "P2H.GET_PARITY_EDGE"
  | .p2hGetParityTmr => "P2H.GET_PARITY_TMR"
  | .p2hWaitStopEdge => "P2H.WAIT_STOP_EDGE"
  | .p2hWaitStopTmr => "P2H.WAIT_STOP_TMR"
  | .p2hGetAckTmr => "P2H.GET_ACK_TMR"
  | .p2dIdleEdge => "P2D.IDLE_EDGE"
  | .p2dHostInhibitEdge => "P2D.HOST_INHIBIT_EDGE"
  | .p2dPrepStartTmr => "P2D.PREP_START_TMR"
  | .p2dSendStartTmr => "P2D.SEND_START_TMR"
  | .p2dPrepBitTmr => "P2D.PREP_BIT_TMR"
  | .p2dSendBitTmr => "P2D.SEND_BIT_TMR"
  | .p2dPrepParityTmr => "P2D.PREP_PARITY_TMR"
  | .p2dSendParityTmr => "P2D.SEND_PARITY_TMR"
  | .p2dPrepStopTmr => "P2D.PREP_STOP_TMR"
  | .p2dSendStopTmr => "P2D.SEND_STOP_TMR"
  | .p2dHoldoffTmr => "P2D.HOLDOFF_TMR"
  | .p2dWaitStartTmr => "P2D.WAIT_START_TMR"
  | .p2dGetStartTmr => "P2D.GET_START_TMR"
  | .p2dWaitBitTmr => "P2D.WAIT_BIT_TMR"
  | .p2dGetBitTmr => "P2D.GET_BIT_TMR"
  | .p2dGetParityTmr => "P2D.GET_PARITY_TMR"
  | .p2dWaitStopTmr => "P2D.WAIT_STOP_TMR"
  | .p2dWaitAckTmr => "P2D.WAIT_ACK_TMR"
  | .p2dGetAckTmr => "P2D.GET_ACK_TMR"
  | .xthIdleEdge => "XTH.IDLE_EDGE"
  | .xthGetBitEdge => "XTH.GET_BIT_EDGE"
  | .xthGetBitTmr => "XTH.GET_BIT_TMR"
  | .xthResetTmr => "XTH.RESET_TMR"
  | .xtdIdleEdge => "XTD.IDLE_EDGE"
  | .xtdHostInhibitTmr => "XTD.HOST_INHIBIT_TMR"
  | .xtdSendStartTmr => "XTD.SEND_START_TMR"
  | .xtdPrepBitTmr => "XTD.PREP_BIT_TMR"
  | .xtdSendBitTmr => "XTD.SEND_BIT_TMR"
  | .xtdHoldoffTmr => "XTD.HOLDOFF_TMR"
  | .framePs2D2h _ _ => "FRAME.PS2_D2H"
  | .framePs2H2d _ _ => "FRAME.PS2_H2D"
  | .frameXtD2h _ _ => "FRAME.XT_D2H"

end Sys2Proof
end

