-- ==== Sys2Proof/Machine/State.lean ====
section
/-!
DEFINITION. The state of the block (spec/10_state.md R10): all of it plain data, with the inputs every step reads
(`ext`), the model's bookkeeping (`now`, the ghost trace), the answer of the command port and the list of what the
environment and the foreground do next. INVENTORY.md lists every field with its rule and its reset value.
-/

namespace Sys2Proof.Machine

open Sys2Proof

/-- The slots of a queue: pairs of slot index and byte, indices strictly rising, no byte equal to
`Config.slotUnwritten`, which is what a slot that is not listed reads as (R40, R50 (a); notes/assumptions/1.md). -/
abbrev Memory := List Host.Cell

/-- A byte queue (R24, R40): `head` is the producer's index, `tail` the consumer's, both below `QUEUE_SLOTS`. -/
structure Queue where
  buf  : Memory
  head : Nat
  tail : Nat
  deriving DecidableEq, Repr

/-- What each protocol instance holds (R10): role, state register, frame registers, queues, edge detector. -/
structure InstState where
  role     : Role
  st       : St
  acc      : Byte
  bitcnt   : Nibble
  ones     : Nibble
  hold     : Byte
  txq      : Queue
  rxq      : Queue
  edgeMode : EdgeMode
  edgePend : Bool
  deriving DecidableEq, Repr

/-- The drives of the seven lines (R80), of the block (R20) or of the far end (R21). -/
structure LineBank where
  ps2Clk    : Drive
  ps2Data   : Drive
  xtClk     : Drive
  xtData    : Drive
  parStrobe : Drive
  parReset  : Drive
  modeSel   : Drive
  deriving DecidableEq, Repr

/-- The one timer (R22): counting, microseconds left, expiry not yet handled, owner. -/
structure Timer where
  run   : Bool
  cnt   : Byte
  pend  : Bool
  owner : Owner
  deriving DecidableEq, Repr

/-- The thirteen configuration registers `cfg[0..12]`, in the order of R29. -/
structure CfgBank where
  ps2HalfCycleUs    : Byte
  ps2HoldoffTicks   : Byte
  ps2hInhibitUs     : Byte
  ps2hBitTimeoutUs  : Byte
  ps2hAckUs         : Byte
  xtStartUs         : Byte
  xtHalfCycleUs     : Byte
  xtHoldoffTicks    : Byte
  xtResetTicks      : Byte
  xthBitTimeoutUs   : Byte
  xthResetTicks     : Byte
  xtBatCode         : Byte
  options           : Byte
  deriving DecidableEq, Repr

/-- The whole state (R10), with the inputs, the bookkeeping, the parameter `QUEUE_SLOTS` and the model's own `script`. -/
structure State where
  /-- `QUEUE_SLOTS` (R7), `N` of R40: a power of two, at least 2. A parameter of the implementation, not state of the
  block (R27): no operation writes it. It stands here because `exec` and `step` take no other argument
  (notes/assumptions/15.md). -/
  slots   : Nat
  /-- Instance `P` (R10). -/
  p       : InstState
  /-- Instance `X` (R10). -/
  x       : InstState
  /-- `ack_seen` of instance `P` (R18). -/
  ackSeen : Bool
  /-- The block's drive of every line (R20). -/
  own     : LineBank
  /-- The far end's drive of every line, an input (R21). -/
  ext     : LineBank
  /-- The timer (R22). -/
  tmr     : Timer
  /-- The configuration registers (R29). -/
  cfg     : CfgBank
  /-- Microseconds since reset, read by no rule (R26). -/
  now     : Nat
  /-- The value the block answered the last command word with (R65). -/
  ret     : Byte
  /-- The refusal bit of that answer (R65). -/
  refused : Bool
  /-- The ghost trace of error events, oldest first, read by no rule (R240, R255). -/
  events  : List ErrorEvent
  /-- What the environment and the foreground do next, in order (R27; notes/assumptions/5.md). -/
  script  : List Code
  deriving DecidableEq, Repr

/-- Why the machine stops with a fault. -/
inductive Fault where
  /-- A handler was dispatched and its (engine, state, event) triple has no rule: R259, R70 (b). Raised by `IRQ.EDGE`
  and `IRQ.TMR` only. Safe: the spec asks for it, and it is to be proved unreachable. -/
  | spuriousDispatch (i : Inst) (st : St) (ev : Ev)
  deriving DecidableEq, Repr

/-- Why an operation is not executed. -/
inductive Refusal where
  /-- Raised by no arm: every operation has its meaning. Safe. -/
  | notModelled (mnemonic : String)
  /-- The operation is not an enabled step in this state (R6, R12, R93, R106, R107, R210, R257, R258): a notification
  waits to be dispatched, or none does, or the instance is in another role or state. Raised by every meaning. Safe:
  the block has no such step (notes/assumptions/7.md). -/
  | notEnabled
  /-- `ENV.LOW` or `ENV.REL` of a line id above 6, which no line has (R80, R106). Safe. -/
  | noSuchLine
  /-- A word of `script` that is no event word and no frame (R67, R60 to R62): the far end has no such action. Raised
  by the fetch. Safe. -/
  | noSuchEvent (e : DecodeError)
  deriving DecidableEq, Repr

/-- The outcome of an operation. -/
abbrev Result := Host.Outcome State Fault Refusal

/-- An empty queue with nothing in its slots (R30). -/
def Queue.reset : Queue := { buf := [], head := 0, tail := 0 }

/-- An instance after hardware reset (R30). -/
def InstState.reset : InstState where
  role     := .none
  st       := .idle
  acc      := 0
  bitcnt   := 0
  ones     := 0
  hold     := 0
  txq      := Queue.reset
  rxq      := Queue.reset
  edgeMode := .off
  edgePend := false

/-- Every line released. -/
def LineBank.released : LineBank where
  ps2Clk    := .rel
  ps2Data   := .rel
  xtClk     := .rel
  xtData    := .rel
  parStrobe := .rel
  parReset  := .rel
  modeSel   := .rel

/-- The timer after hardware reset (R30). -/
def Timer.reset : Timer := { run := false, cnt := 0, pend := false, owner := .none }

/-- The configuration registers after hardware reset (R29, R30). -/
def CfgBank.reset : CfgBank where
  ps2HalfCycleUs   := Config.cfgReset .ps2HalfCycleUs
  ps2HoldoffTicks  := Config.cfgReset .ps2HoldoffTicks
  ps2hInhibitUs    := Config.cfgReset .ps2hInhibitUs
  ps2hBitTimeoutUs := Config.cfgReset .ps2hBitTimeoutUs
  ps2hAckUs        := Config.cfgReset .ps2hAckUs
  xtStartUs        := Config.cfgReset .xtStartUs
  xtHalfCycleUs    := Config.cfgReset .xtHalfCycleUs
  xtHoldoffTicks   := Config.cfgReset .xtHoldoffTicks
  xtResetTicks     := Config.cfgReset .xtResetTicks
  xthBitTimeoutUs  := Config.cfgReset .xthBitTimeoutUs
  xthResetTicks    := Config.cfgReset .xthResetTicks
  xtBatCode        := Config.cfgReset .xtBatCode
  options          := Config.cfgReset .options

/-- The block right after hardware reset (R30, R270). `ext` (notes/assumptions/2.md), `ret` and `refused`
(notes/assumptions/3.md), `events` (notes/assumptions/4.md) and `script` (notes/assumptions/5.md) are not in R30's
table. -/
def State.reset : State where
  slots   := Config.queueSlots
  p       := InstState.reset
  x       := InstState.reset
  ackSeen := true
  own     := LineBank.released
  ext     := LineBank.released
  tmr     := Timer.reset
  cfg     := CfgBank.reset
  now     := 0
  ret     := 0
  refused := false
  events  := []
  script  := []

/-- The state of an instance. -/
def State.inst (s : State) : Inst → InstState
  | .P => s.p
  | .X => s.x

/-- Rewrite the state of an instance. -/
def State.modInst (i : Inst) (f : InstState → InstState) (s : State) : State :=
  match i with
  | .P => { s with p := f s.p }
  | .X => { s with x := f s.x }

end Sys2Proof.Machine
end

