-- ==== Sys2Proof/Machine/Ops.lean ====
section
/-!
DEFINITION. The named operations the rules are written in (spec/00_scope.md R9): queue slots and queues (R40 to R45),
registers, lines (R80 to R86), the timer (R91, R92), the edge detectors (R98), the frame helpers (R17, R63, R64), the
ghost events (R240), the answers of the command port (R65, R210), and taking a notification (R249, R257, R258) with
the end of a handler step (R250). Every operation takes the state last and gives the state after it, so a meaning
lists its operations in the order its rule writes them.
-/

namespace Sys2Proof.Machine

open Sys2Proof

/-! ## Queue slots -/

/-- `MemRead(q, a, 1)` (R40): the byte of slot `a`. -/
def Memory.read (m : Memory) (a : Nat) : Byte :=
  match m with
  | [] => Config.slotUnwritten
  | (b, v) :: rest => if a = b then v else Memory.read rest a

/-- `v` at slot `a` in front of the cells `m`, which all lie above `a`. -/
def Memory.putFront (m : Memory) (a : Nat) (v : Byte) : Memory :=
  if v = Config.slotUnwritten then m else (a, v) :: m

/-- `MemWrite(q, a, 1, v)` (R40). It keeps the canonical form: indices rising, no cell equal to an unlisted one. -/
def Memory.write (m : Memory) (a : Nat) (v : Byte) : Memory :=
  match m with
  | [] => Memory.putFront [] a v
  | (b, w) :: rest =>
    if a < b then Memory.putFront ((b, w) :: rest) a v
    else if a = b then Memory.putFront rest a v
    else (b, w) :: Memory.write rest a v

/-- The canonical form of the slots of a queue of `n` slots, every index below `n`. -/
abbrev Memory.wf (n : Nat) (m : Memory) : Prop :=
  m.Pairwise (fun c d => c.1 < d.1) ∧ ∀ c ∈ m, c.2 ≠ Config.slotUnwritten ∧ c.1 < n

/-! ## Queues

`n` is `QUEUE_SLOTS`, `N` of R40, modulo which all index arithmetic is. -/

/-- The next index (R40). -/
def nextIndex (n k : Nat) : Nat := (k + 1) % n

/-- `empty(q)` (R41). -/
def Queue.empty (q : Queue) : Bool := q.head == q.tail

/-- `full(q)` (R41). -/
def Queue.full (n : Nat) (q : Queue) : Bool := nextIndex n q.head == q.tail

/-- `count(q)` (R41): `(head - tail)` modulo `n`, both being below `n`. -/
def Queue.count (n : Nat) (q : Queue) : Nat := (q.head + n - q.tail) % n

/-- The stored half of `push` (R42): the slot is written before `head` moves. Only for a queue that is not full. -/
def Queue.put (n : Nat) (q : Queue) (v : Byte) : Queue :=
  { q with buf := Memory.write q.buf q.head v, head := nextIndex n q.head }

/-- The oldest byte, which `pop` returns (R43). -/
def Queue.front (q : Queue) : Byte := Memory.read q.buf q.tail

/-- The queue after `pop` (R43). Only for a queue that is not empty. -/
def Queue.drop (n : Nat) (q : Queue) : Queue := { q with tail := nextIndex n q.tail }

/-- `clear(q)` (R45): the slots keep their bytes. -/
def Queue.clear (q : Queue) : Queue := { q with head := 0, tail := 0 }

/-- A queue of `n` slots is well formed (R28 (b), R40): its slots are in canonical form and its indices below `n`. -/
abbrev Queue.wf (n : Nat) (q : Queue) : Prop := q.buf.wf n ∧ q.head < n ∧ q.tail < n

/-- A queue of an instance. -/
def InstState.queue (v : InstState) : Dir → Queue
  | .tx => v.txq
  | .rx => v.rxq

/-- Rewrite a queue of an instance. -/
def InstState.setQueue (v : InstState) (d : Dir) (q : Queue) : InstState :=
  match d with
  | .tx => { v with txq := q }
  | .rx => { v with rxq := q }

/-- `raise e` (R240): a ghost label, appended to the trace. -/
def raise (e : ErrorEvent) (s : State) : State := { s with events := s.events ++ [e] }

/-- Replace a queue. -/
def setQueue (i : Inst) (d : Dir) (q : Queue) (s : State) : State := s.modInst i (fun v => v.setQueue d q)

/-- `push(q, v)` (R42, R44): on a full queue `v` is dropped, the queue stays as it is and `Overflow` is raised. -/
def push (i : Inst) (d : Dir) (v : Byte) (s : State) : State :=
  if ((s.inst i).queue d).full s.slots then raise (.overflow i d) s
  else setQueue i d (((s.inst i).queue d).put s.slots v) s

/-- `clear(q)` (R45). -/
def clear (i : Inst) (d : Dir) (s : State) : State := setQueue i d ((s.inst i).queue d).clear s

/-! ## Instance registers -/

/-- `role <- r` (R11). -/
def setRole (i : Inst) (r : Role) (s : State) : State := s.modInst i (fun v => { v with role := r })

/-- `st <- c` (R12). -/
def setSt (i : Inst) (c : St) (s : State) : State := s.modInst i (fun v => { v with st := c })

/-- `hold <- n` (R16). -/
def setHold (i : Inst) (n : Byte) (s : State) : State := s.modInst i (fun v => { v with hold := n })

/-- `ack_seen <- b` (R18). -/
def setAckSeen (b : Bool) (s : State) : State := { s with ackSeen := b }

/-- A frame begins: `acc <- v; bitcnt <- 0; ones <- 0` (R14, R15). -/
def frameStart (i : Inst) (v : Byte) (s : State) : State :=
  s.modInst i (fun w => { w with acc := v, bitcnt := 0, ones := 0 })

/-- `frame_reset()` (R17). -/
def frameReset (i : Inst) (s : State) : State := frameStart i 0 s

/-- A send begins: `acc <- pop(txq); bitcnt <- 0; ones <- 0` (R112, R142, R191). -/
def frameFromTx (i : Inst) (s : State) : State :=
  let v := (s.inst i).txq.front
  let s := setQueue i .tx ((s.inst i).txq.drop s.slots) s
  frameStart i v s

/-! ## Lines -/

/-- The drive of a line. -/
def LineBank.get (b : LineBank) : Line → Drive
  | .ps2Clk => b.ps2Clk
  | .ps2Data => b.ps2Data
  | .xtClk => b.xtClk
  | .xtData => b.xtData
  | .parStrobe => b.parStrobe
  | .parReset => b.parReset
  | .modeSel => b.modeSel

/-- Set the drive of a line. -/
def LineBank.set (b : LineBank) (l : Line) (d : Drive) : LineBank :=
  match l with
  | .ps2Clk => { b with ps2Clk := d }
  | .ps2Data => { b with ps2Data := d }
  | .xtClk => { b with xtClk := d }
  | .xtData => { b with xtData := d }
  | .parStrobe => { b with parStrobe := d }
  | .parReset => { b with parReset := d }
  | .modeSel => { b with modeSel := d }

/-- The CLOCK line of an instance (R80). -/
def clkOf : Inst → Line
  | .P => .ps2Clk
  | .X => .xtClk

/-- The DATA line of an instance (R80). -/
def dataOf : Inst → Line
  | .P => .ps2Data
  | .X => .xtData

/-- `level(L)` (R84): high only when the block and the far end have both released the line. `read(L)` (R83) is this
at the point of the step where the rule reads. -/
def level (l : Line) (s : State) : Bool := s.own.get l == .rel && s.ext.get l == .rel

/-- `own[L] <- d` (R20). -/
def setOwn (l : Line) (d : Drive) (s : State) : State := { s with own := s.own.set l d }

/-- `assert(L)` (R81). -/
def assertLine (l : Line) (s : State) : State := setOwn l .low s

/-- `release(L)` (R82). -/
def releaseLine (l : Line) (s : State) : State := setOwn l .rel s

/-- `drive(L, b)` (R86). -/
def driveLine (l : Line) (b : Bool) (s : State) : State := if b then releaseLine l s else assertLine l s

/-- `ext[L] <- d`, the far end's act (R21). -/
def setExt (l : Line) (d : Drive) (s : State) : State := { s with ext := s.ext.set l d }

/-! ## Configuration registers -/

/-- `cfg[r]` (R29). -/
def CfgBank.get (c : CfgBank) : CfgReg → Byte
  | .ps2HalfCycleUs => c.ps2HalfCycleUs
  | .ps2HoldoffTicks => c.ps2HoldoffTicks
  | .ps2hInhibitUs => c.ps2hInhibitUs
  | .ps2hBitTimeoutUs => c.ps2hBitTimeoutUs
  | .ps2hAckUs => c.ps2hAckUs
  | .xtStartUs => c.xtStartUs
  | .xtHalfCycleUs => c.xtHalfCycleUs
  | .xtHoldoffTicks => c.xtHoldoffTicks
  | .xtResetTicks => c.xtResetTicks
  | .xthBitTimeoutUs => c.xthBitTimeoutUs
  | .xthResetTicks => c.xthResetTicks
  | .xtBatCode => c.xtBatCode
  | .options => c.options

/-- `cfg[r] <- v` (R29). -/
def CfgBank.set (c : CfgBank) (r : CfgReg) (v : Byte) : CfgBank :=
  match r with
  | .ps2HalfCycleUs => { c with ps2HalfCycleUs := v }
  | .ps2HoldoffTicks => { c with ps2HoldoffTicks := v }
  | .ps2hInhibitUs => { c with ps2hInhibitUs := v }
  | .ps2hBitTimeoutUs => { c with ps2hBitTimeoutUs := v }
  | .ps2hAckUs => { c with ps2hAckUs := v }
  | .xtStartUs => { c with xtStartUs := v }
  | .xtHalfCycleUs => { c with xtHalfCycleUs := v }
  | .xtHoldoffTicks => { c with xtHoldoffTicks := v }
  | .xtResetTicks => { c with xtResetTicks := v }
  | .xthBitTimeoutUs => { c with xthBitTimeoutUs := v }
  | .xthResetTicks => { c with xthResetTicks := v }
  | .xtBatCode => { c with xtBatCode := v }
  | .options => { c with options := v }

/-- `cfg[r] <- v` on the state. -/
def setCfg (r : CfgReg) (v : Byte) (s : State) : State := { s with cfg := s.cfg.set r v }

/-- `PS2D_WAIT_SEND_ACK`, bit 0 of `cfg[12]` (R29). -/
def waitSendAck (s : State) : Bool := (s.cfg.get .options).getLsbD 0

/-! ## Timer and edge detectors -/

/-- The timer owner that an instance is (R22). -/
def ownerOf : Inst → Owner
  | .P => .P
  | .X => .X

/-- The instance that owns the timer, if one does (R258). -/
def ownerInst : Owner → Option Inst
  | .P => some .P
  | .X => some .X
  | .none => none
  | .FG => none

/-- `arm(d)` by the agent `c` (R91, R95): it takes the timer from whoever had it. -/
def arm (c : Owner) (d : Byte) (s : State) : State :=
  { s with tmr := { run := true, cnt := d, pend := false, owner := c } }

/-- Stop the timer and drop its owner (R92, R102); the count stays where it is. -/
def stopTimer (s : State) : State := { s with tmr := { s.tmr with run := false, pend := false, owner := .none } }

/-- `tmr_off()` by the agent `c` (R92): it acts for the owner only. -/
def tmrOff (c : Owner) (s : State) : State := if s.tmr.owner = c then stopTimer s else s

/-- `edge(m)` of an instance (R98): selecting a mode discards a pending edge. -/
def setEdge (i : Inst) (m : EdgeMode) (s : State) : State :=
  s.modInst i (fun v => { v with edgeMode := m, edgePend := false })

/-- `arm(cfg[r])` by an engine (R91, R54: the register is read now). -/
def armCfg (i : Inst) (r : CfgReg) (s : State) : State := arm (ownerOf i) (s.cfg.get r) s

/-! ## Frame helpers -/

/-- What one data bit does to the frame counters: `ones <- ones + b`, `bitcnt <- bitcnt + 1` (R63), with `acc <- a`.
The counters have their register's width (R14, R15; notes/assumptions/9.md). -/
def countBit (i : Inst) (a : Byte) (b : Bool) (s : State) : State :=
  s.modInst i (fun v => { v with acc := a, ones := if b then v.ones + 1 else v.ones, bitcnt := v.bitcnt + 1 })

/-- `put_bit()` (R63): the low bit of `acc` goes on DATA. -/
def putBit (i : Inst) (s : State) : State :=
  let b := (s.inst i).acc.getLsbD 0
  let s := driveLine (dataOf i) b s
  countBit i ((s.inst i).acc >>> 1) b s

/-- `acc` with a received bit (R13): `(acc >> 1) | (b << 7)`. -/
def shiftIn (acc : Byte) (b : Bool) : Byte := (acc >>> 1) ||| (byteOfBit b <<< 7)

/-- `get_bit()` (R63): the level of DATA enters `acc` from the top. -/
def getBit (i : Inst) (s : State) : State :=
  let b := level (dataOf i) s
  countBit i (shiftIn (s.inst i).acc b) b s

/-! ## Answers of the command port -/

/-- Answer a command that is not refused (R210): `refused` = 0 and `ret` as its rule says, 0 if it returns nothing. -/
def answer (v : Byte) (s : State) : State := { s with ret := v, refused := false }

/-- `refuse` (R210): nothing changes but the answer, `refused` = 1 and `ret` = 0. -/
def refuse (s : State) : State := { s with ret := 0, refused := true }

/-! ## Taking a notification -/

/-- The engine of an instance in a role (R11, R69); an instance without a role has none. -/
def engineOf : Inst → Role → Option Engine
  | .P, .host => some .p2h
  | .P, .device => some .p2d
  | .X, .host => some .xth
  | .X, .device => some .xtd
  | _, .none => none

/-- The edge notification of an instance is pending and deliverable (R247). -/
def edgeDeliverable (i : Inst) (s : State) : Bool := (s.inst i).edgePend && (s.inst i).role != .none

/-- The timer notification is pending and deliverable (R247). -/
def tmrDeliverable (s : State) : Bool := s.tmr.pend && (ownerInst s.tmr.owner).isSome

/-- The notification that is dispatched next, if one is deliverable, by the priority of R248: edge of `P`, edge of
`X`, timer. -/
def deliverable (s : State) : Option Notification :=
  if edgeDeliverable .P s then some (.edge .P)
  else if edgeDeliverable .X s then some (.edge .X)
  else if tmrDeliverable s then some .timer
  else none

/-- Entry to the edge handler of an instance (R257): `edge_pend <- 0`. Nothing is saved (R249). -/
def takeEdge (i : Inst) (s : State) : State := s.modInst i (fun v => { v with edgePend := false })

/-- Entry to the timer handler (R258): `tmr_pend <- 0; tmr_owner <- NONE`. Nothing is saved (R249). -/
def takeTimer (s : State) : State := { s with tmr := { s.tmr with pend := false, owner := .none } }

/-- The transition a notification of an instance selects: the one of the dispatch key of (engine, `st`, event)
(R249, R69). None if the instance has no engine or the key has no rule (R259). -/
def selectTransition (i : Inst) (ev : Ev) (s : State) : Option Instr :=
  match engineOf i (s.inst i).role with
  | some e => decodeKey (dispatchKey e (s.inst i).st ev)
  | none => none

end Sys2Proof.Machine
end

