-- ==== Sys2Proof/Machine/Flags.lean ====
section
/-!
DEFINITION. The one-bit results (spec/10_state.md R19): the parity symbol (R64), the edge detection that ends every
step (R99), the status words of the timer and the detectors (R103, R105), and the frame every whole step stands in.
-/

namespace Sys2Proof.Machine

open Sys2Proof

/-- `parity_bit()` (R64): 1 if `ones` is even. -/
def parityBit (i : Inst) (s : State) : Bool := (s.inst i).ones.toNat % 2 == 0

/-- An edge that the selected mode detects, from the level before to the level after (R99). -/
def edgeSeen (m : EdgeMode) (before after : Bool) : Bool :=
  match m with
  | .fall => before && !after
  | .rise => !before && after
  | .off => false

/-- R99 for one instance: `b` is the level of its CLOCK before the step; the level and the mode after are those of
`s`. A seen edge sets `edge_pend`; nothing here clears it. -/
def detectEdge (i : Inst) (b : Bool) (s : State) : State :=
  if edgeSeen (s.inst i).edgeMode b (level (clkOf i) s) then s.modInst i (fun v => { v with edgePend := true }) else s

/-- R99, the last effect of every step: `before` is the state the step started from, `s` the state after all its
other effects. -/
def detectEdges (before s : State) : State :=
  detectEdge .X (level (clkOf .X) before) (detectEdge .P (level (clkOf .P) before) s)

/-- The word of `TMR.STATUS` (R103): `0000 || tmr_owner[1:0] || tmr_pend || tmr_run`. -/
def timerStatus (t : Timer) : Byte :=
  (0 : BitVec 4) ++ t.owner.code ++ BitVec.ofBool t.pend ++ BitVec.ofBool t.run

/-- The word of `EDGE.STATUS` (R105): `00000 || edge_mode || edge_pend`. -/
def edgeStatus (v : InstState) : Byte := (0 : BitVec 5) ++ v.edgeMode.code ++ BitVec.ofBool v.edgePend

/-- A whole step of the environment or the foreground (R6, R93, R106, R107, R210): enabled only while no notification
is deliverable, atomic, and ended by R99. -/
def asStep (body : State → State) (s : State) : Result :=
  if deliverable s = none then .next (detectEdges s (body s)) else .refused .notEnabled

/-- A transition of an engine (R12): the rule named `S/EDGE` or `S/TMR` runs for an instance in its role while
`st` = `S`. The taking of the notification before it and R99 after it belong to `IRQ.EDGE` and `IRQ.TMR`. -/
def transition (i : Inst) (r : Role) (c : St) (body : State → State) (s : State) : Result :=
  if (s.inst i).role = r ∧ (s.inst i).st = c then .next (body s) else .refused .notEnabled

end Sys2Proof.Machine
end

