-- ==== Sys2Proof/Machine/Operands.lean ====
section
/-!
DEFINITION. The operand forms of the commands and events (spec/30_encoding.md R66, R67): a line id, an edge mode, a
role, a `cfg` index. Each gives the name the operand stands for, or none where R70 (a) calls it illegal.
-/

namespace Sys2Proof.Machine

open Sys2Proof

/-- The line of an id (R80). -/
def lineOfId (l : Nat) : Option Line :=
  match l with
  | 0 => some .ps2Clk
  | 1 => some .ps2Data
  | 2 => some .xtClk
  | 3 => some .xtData
  | 4 => some .parStrobe
  | 5 => some .parReset
  | 6 => some .modeSel
  | _ => none

/-- `inst(L)` of R87: the instance whose line it is; lines 4 to 6 are of none. -/
def instOfLine : Line → Option Inst
  | .ps2Clk | .ps2Data => some .P
  | .xtClk | .xtData => some .X
  | .parStrobe | .parReset | .modeSel => none

/-- An engine owns the line (R85): it is a line of an instance that has a role. -/
def lineOwned (l : Line) (s : State) : Bool :=
  match instOfLine l with
  | some i => (s.inst i).role != .none
  | none => false

/-- The edge mode of an operand (R104); 3 is reserved. -/
def modeOfOperand (m : BitVec 2) : Option EdgeMode :=
  match m.toNat with
  | 0 => some .off
  | 1 => some .fall
  | 2 => some .rise
  | _ => none

/-- The role of an operand (R211): 1 or 2. -/
def roleOfOperand (rr : Byte) : Option Role :=
  match rr.toNat with
  | 1 => some .host
  | 2 => some .device
  | _ => none

/-- The configuration register of an index (R29). -/
def cfgOfIndex (r : BitVec 4) : Option CfgReg :=
  match r.toNat with
  | 0 => some .ps2HalfCycleUs
  | 1 => some .ps2HoldoffTicks
  | 2 => some .ps2hInhibitUs
  | 3 => some .ps2hBitTimeoutUs
  | 4 => some .ps2hAckUs
  | 5 => some .xtStartUs
  | 6 => some .xtHalfCycleUs
  | 7 => some .xtHoldoffTicks
  | 8 => some .xtResetTicks
  | 9 => some .xthBitTimeoutUs
  | 10 => some .xthResetTicks
  | 11 => some .xtBatCode
  | 12 => some .options
  | _ => none

/-- The value 0 is reserved in the register (R29, R219): every one but `XT_BAT_CODE` and `OPTIONS`. -/
def zeroReserved : CfgReg → Bool
  | .xtBatCode | .options => false
  | .ps2HalfCycleUs | .ps2HoldoffTicks | .ps2hInhibitUs | .ps2hBitTimeoutUs | .ps2hAckUs | .xtStartUs
  | .xtHalfCycleUs | .xtHoldoffTicks | .xtResetTicks | .xthBitTimeoutUs | .xthResetTicks => true

/-- What a written value is stored as (R219): bits 7:1 of `OPTIONS` are ignored. -/
def cfgStored (r : CfgReg) (v : Byte) : Byte :=
  match r with
  | .options => v &&& 1
  | .ps2HalfCycleUs | .ps2HoldoffTicks | .ps2hInhibitUs | .ps2hBitTimeoutUs | .ps2hAckUs | .xtStartUs
  | .xtHalfCycleUs | .xtHoldoffTicks | .xtResetTicks | .xthBitTimeoutUs | .xthResetTicks | .xtBatCode => v

end Sys2Proof.Machine
end

