-- ==== Sys2Proof/Machine/Ps2Device.lean ====
section
/-!
DEFINITION. The PS/2 device-role engine (spec/43_ps2_device.md): instance `P` with role DEVICE. `CLK` is `PS2_CLK`,
`DATA` is `PS2_DATA`, `HC` is `PS2_HALF_CYCLE_US`.
-/

namespace Sys2Proof.Machine

open Sys2Proof

/-- `arm(HC); st <- c`, the end of almost every step of this engine (R140). -/
def p2dTick (c : St) (s : State) : State := setSt .P c (armCfg .P .ps2HalfCycleUs s)

/-- `p2d_start_send()` (R142). -/
def p2dStartSend (s : State) : State :=
  let s := setEdge .P .off s
  let s := frameFromTx .P s
  let s := assertLine .ps2Data s
  p2dTick .prepStart s

/-- `p2d_start_receive()` (R166). -/
def p2dStartReceive (s : State) : State :=
  let s := setEdge .P .off s
  let s := frameStart .P 0 s
  p2dTick .waitStart s

/-- `p2d_check_bus()` (R141), the idle-entry function. -/
def p2dCheckBus (s : State) : State :=
  if level .ps2Clk s = false then
    let s := tmrOff .P s
    let s := setEdge .P .rise s
    setSt .P .hostInhibit s
  else if level .ps2Data s = false then p2dStartReceive s
  else if s.p.txq.empty = false then p2dStartSend s
  else
    let s := tmrOff .P s
    let s := setEdge .P .fall s
    setSt .P .idle s

/-- `p2d_abort()` (R143). -/
def p2dAbort (s : State) : State :=
  let s := raise (.abort s.p.st) s
  let s := releaseLine .ps2Data s
  let s := releaseLine .ps2Clk s
  let s := tmrOff .P s
  let s := setEdge .P .rise s
  let s := frameReset .P s
  setSt .P .hostInhibit s

/-- The contention check of the five send states in which the device has released CLOCK (R143). -/
def p2dUnlessContention (body : State → State) (s : State) : State :=
  if level .ps2Clk s = false then p2dAbort s else body s

/-- The body of R144. -/
def p2dIdleEdge (s : State) : State :=
  let s := setEdge .P .rise s
  setSt .P .hostInhibit s

/-- `assert(CLK)`, then the tick to the state `c` (R147, R149, R151, R155, R161). -/
def p2dFall (c : St) (s : State) : State := p2dTick c (assertLine .ps2Clk s)

/-- `release(CLK)`, then the tick to the state `c` (R148, R150, R152, R156, R158). -/
def p2dRise (c : St) (s : State) : State := p2dTick c (releaseLine .ps2Clk s)

/-- The body of R146. -/
def p2dPrepStartTmr (s : State) : State := p2dUnlessContention (p2dTick .sendStart) s

/-- The body of R147. -/
def p2dSendStartTmr (s : State) : State := p2dUnlessContention (p2dFall .prepBit) s

/-- The body of R148: DATA changes before CLOCK is released. -/
def p2dPrepBitTmr (s : State) : State :=
  let s := putBit .P s
  p2dRise .sendBit s

/-- The body of R149. -/
def p2dSendBitTmr (s : State) : State :=
  p2dUnlessContention (p2dFall (if s.p.bitcnt = 8 then .prepParity else .prepBit)) s

/-- The body of R150. -/
def p2dPrepParityTmr (s : State) : State :=
  let s := driveLine .ps2Data (parityBit .P s) s
  p2dRise .sendParity s

/-- The body of R151. -/
def p2dSendParityTmr (s : State) : State := p2dUnlessContention (p2dFall .prepStop) s

/-- The body of R152. -/
def p2dPrepStopTmr (s : State) : State :=
  let s := releaseLine .ps2Data s
  p2dRise .sendStop s

/-- The part of R153 that runs when CLOCK is high. -/
def p2dStopFall (s : State) : State :=
  let s := assertLine .ps2Clk s
  let s := setHold .P (s.cfg.get .ps2HoldoffTicks) s
  let s := setAckSeen (!waitSendAck s) s
  let s := frameReset .P s
  p2dTick .holdoff s

/-- The body of R153. -/
def p2dSendStopTmr (s : State) : State := p2dUnlessContention p2dStopFall s

/-- The body of R154. -/
def p2dHoldoffTmr (s : State) : State :=
  let s := releaseLine .ps2Clk s
  if s.ackSeen = false then
    let s := if level .ps2Data s = false then setAckSeen true s else s
    armCfg .P .ps2HalfCycleUs s
  else
    let s := setHold .P (s.p.hold - 1) s
    if s.p.hold = 0 then p2dCheckBus s else armCfg .P .ps2HalfCycleUs s

/-- The body of R155. -/
def p2dWaitStartTmr (s : State) : State := p2dFall .getStart s

/-- The body of R156. -/
def p2dGetStartTmr (s : State) : State := p2dRise .waitBit s

/-- The body of R157: DATA is read before CLOCK is pulled low (R55). -/
def p2dWaitBitTmr (s : State) : State :=
  let s := getBit .P s
  p2dFall .getBit s

/-- The body of R158. -/
def p2dGetBitTmr (s : State) : State := p2dRise (if s.p.bitcnt = 8 then .getParity else .waitBit) s

/-- The body of R159; the symbol read is discarded. -/
def p2dGetParityTmr (s : State) : State := p2dFall .waitStop s

/-- The body of R160; the symbol read is discarded. -/
def p2dWaitStopTmr (s : State) : State :=
  let s := releaseLine .ps2Clk s
  let s := assertLine .ps2Data s
  p2dTick .waitAck s

/-- The body of R161. -/
def p2dWaitAckTmr (s : State) : State := p2dFall .getAck s

/-- The body of R162. -/
def p2dGetAckTmr (s : State) : State :=
  let s := releaseLine .ps2Clk s
  let s := releaseLine .ps2Data s
  let s := push .P .rx s.p.acc s
  let s := setHold .P (s.cfg.get .ps2HoldoffTicks) s
  let s := setAckSeen true s
  let s := frameReset .P s
  p2dTick .holdoff s

/-- `P2D.IDLE_EDGE`, key `0x40` (R144): the host inhibits. -/
def execP2dIdleEdge (s : State) : Result := transition .P .device .idle p2dIdleEdge s

/-- `P2D.HOST_INHIBIT_EDGE`, key `0x42` (R145): the inhibit is over. -/
def execP2dHostInhibitEdge (s : State) : Result := transition .P .device .hostInhibit p2dCheckBus s

/-- `P2D.PREP_START_TMR`, key `0x45` (R146). -/
def execP2dPrepStartTmr (s : State) : Result := transition .P .device .prepStart p2dPrepStartTmr s

/-- `P2D.SEND_START_TMR`, key `0x47` (R147): CLOCK fall 1. -/
def execP2dSendStartTmr (s : State) : Result := transition .P .device .sendStart p2dSendStartTmr s

/-- `P2D.PREP_BIT_TMR`, key `0x49` (R148): a data symbol and a CLOCK rise. -/
def execP2dPrepBitTmr (s : State) : Result := transition .P .device .prepBit p2dPrepBitTmr s

/-- `P2D.SEND_BIT_TMR`, key `0x4B` (R149): CLOCK falls 2 to 9. -/
def execP2dSendBitTmr (s : State) : Result := transition .P .device .sendBit p2dSendBitTmr s

/-- `P2D.PREP_PARITY_TMR`, key `0x4D` (R150). -/
def execP2dPrepParityTmr (s : State) : Result := transition .P .device .prepParity p2dPrepParityTmr s

/-- `P2D.SEND_PARITY_TMR`, key `0x4F` (R151): CLOCK fall 10. -/
def execP2dSendParityTmr (s : State) : Result := transition .P .device .sendParity p2dSendParityTmr s

/-- `P2D.PREP_STOP_TMR`, key `0x51` (R152). -/
def execP2dPrepStopTmr (s : State) : Result := transition .P .device .prepStop p2dPrepStopTmr s

/-- `P2D.SEND_STOP_TMR`, key `0x53` (R153): CLOCK fall 11. -/
def execP2dSendStopTmr (s : State) : Result := transition .P .device .sendStop p2dSendStopTmr s

/-- `P2D.HOLDOFF_TMR`, key `0x55` (R154): one holdoff tick. -/
def execP2dHoldoffTmr (s : State) : Result := transition .P .device .holdoff p2dHoldoffTmr s

/-- `P2D.WAIT_START_TMR`, key `0x57` (R155): CLOCK fall 1 of a receive. -/
def execP2dWaitStartTmr (s : State) : Result := transition .P .device .waitStart p2dWaitStartTmr s

/-- `P2D.GET_START_TMR`, key `0x59` (R156): CLOCK rise 1. -/
def execP2dGetStartTmr (s : State) : Result := transition .P .device .getStart p2dGetStartTmr s

/-- `P2D.WAIT_BIT_TMR`, key `0x5B` (R157): sample, then CLOCK falls 2 to 9. -/
def execP2dWaitBitTmr (s : State) : Result := transition .P .device .waitBit p2dWaitBitTmr s

/-- `P2D.GET_BIT_TMR`, key `0x5D` (R158): CLOCK rise. -/
def execP2dGetBitTmr (s : State) : Result := transition .P .device .getBit p2dGetBitTmr s

/-- `P2D.GET_PARITY_TMR`, key `0x5F` (R159): CLOCK fall 10. -/
def execP2dGetParityTmr (s : State) : Result := transition .P .device .getParity p2dGetParityTmr s

/-- `P2D.WAIT_STOP_TMR`, key `0x61` (R160): CLOCK rise 10, the acknowledge begins. -/
def execP2dWaitStopTmr (s : State) : Result := transition .P .device .waitStop p2dWaitStopTmr s

/-- `P2D.WAIT_ACK_TMR`, key `0x63` (R161): CLOCK fall 11. -/
def execP2dWaitAckTmr (s : State) : Result := transition .P .device .waitAck p2dWaitAckTmr s

/-- `P2D.GET_ACK_TMR`, key `0x65` (R162): CLOCK rise 11, the byte is committed. -/
def execP2dGetAckTmr (s : State) : Result := transition .P .device .getAck p2dGetAckTmr s

end Sys2Proof.Machine
end

