-- ==== Sys2Proof/Machine/Ps2Host.lean ====
section
/-!
DEFINITION. The PS/2 host-role engine (spec/42_ps2_host.md): instance `P` with role HOST. `CLK` is `PS2_CLK`, `DATA`
is `PS2_DATA`.
-/

namespace Sys2Proof.Machine

open Sys2Proof

/-- `p2h_start_send()` (R112). -/
def p2hStartSend (s : State) : State :=
  let s := setEdge .P .off s
  let s := frameFromTx .P s
  let s := assertLine .ps2Clk s
  let s := armCfg .P .ps2hInhibitUs s
  setSt .P .prepStart s

/-- `p2h_check_for_data()` (R111), the idle-entry function. -/
def p2hCheckForData (s : State) : State :=
  if s.p.txq.empty then
    let s := tmrOff .P s
    let s := setEdge .P .fall s
    setSt .P .idle s
  else p2hStartSend s

/-- `p2h_timeout()` (R131). -/
def p2hTimeout (s : State) : State :=
  let s := raise (.timeout s.p.st) s
  let s := releaseLine .ps2Data s
  let s := frameReset .P s
  p2hCheckForData s

/-- `arm(T)` with `T` = `PS2H_BIT_TIMEOUT_US`. -/
def p2hArmTimeout (s : State) : State := armCfg .P .ps2hBitTimeoutUs s

/-- The body of R113. -/
def p2hIdleEdge (s : State) : State :=
  let s := frameStart .P 0 s
  let s := p2hArmTimeout s
  setSt .P .getBit s

/-- The body of R114. -/
def p2hGetBitEdge (s : State) : State :=
  let s := getBit .P s
  let s := p2hArmTimeout s
  if s.p.bitcnt = 8 then setSt .P .getParity s else s

/-- The body of R115; the symbol read is discarded. -/
def p2hGetParityEdge (s : State) : State :=
  let s := p2hArmTimeout s
  setSt .P .waitStop s

/-- The body of R116; the symbol read is discarded. -/
def p2hWaitStopEdge (s : State) : State :=
  let s := push .P .rx s.p.acc s
  let s := frameReset .P s
  let s := setEdge .P .off s
  let s := assertLine .ps2Data s
  let s := armCfg .P .ps2hAckUs s
  setSt .P .getAck s

/-- The body of R117. -/
def p2hGetAckTmr (s : State) : State :=
  let s := releaseLine .ps2Data s
  p2hCheckForData s

/-- The body of R121: DATA is pulled low before CLOCK is released; the timer stays stopped (R132). -/
def p2hPrepStartTmr (s : State) : State :=
  let s := assertLine .ps2Data s
  let s := releaseLine .ps2Clk s
  let s := setEdge .P .fall s
  setSt .P .sendStart s

/-- The body of R122. -/
def p2hSendStartEdge (s : State) : State :=
  let s := putBit .P s
  let s := p2hArmTimeout s
  setSt .P .sendBit s

/-- The body of R123. -/
def p2hSendBitEdge (s : State) : State :=
  if s.p.bitcnt < 8 then
    let s := putBit .P s
    p2hArmTimeout s
  else
    let s := driveLine .ps2Data (parityBit .P s) s
    let s := p2hArmTimeout s
    setSt .P .sendParity s

/-- The body of R124. -/
def p2hSendParityEdge (s : State) : State :=
  let s := releaseLine .ps2Data s
  let s := p2hArmTimeout s
  setSt .P .sendStop s

/-- The body of R125: a missing acknowledge is labelled and changes nothing (R244). -/
def p2hSendStopEdge (s : State) : State :=
  let s := if level .ps2Data s then raise .noAck s else s
  let s := frameReset .P s
  p2hCheckForData s

/-- `P2H.IDLE_EDGE`, key `0x00` (R113): the first CLOCK fall of a device frame. -/
def execP2hIdleEdge (s : State) : Result := transition .P .host .idle p2hIdleEdge s

/-- `P2H.GET_BIT_EDGE`, key `0x1C` (R114): CLOCK falls 2 to 9. -/
def execP2hGetBitEdge (s : State) : Result := transition .P .host .getBit p2hGetBitEdge s

/-- `P2H.GET_PARITY_EDGE`, key `0x1E` (R115): CLOCK fall 10. -/
def execP2hGetParityEdge (s : State) : Result := transition .P .host .getParity p2hGetParityEdge s

/-- `P2H.WAIT_STOP_EDGE`, key `0x20` (R116): CLOCK fall 11, the byte is committed. -/
def execP2hWaitStopEdge (s : State) : Result := transition .P .host .waitStop p2hWaitStopEdge s

/-- `P2H.GET_ACK_TMR`, key `0x25` (R117): the acknowledge pulse is over. -/
def execP2hGetAckTmr (s : State) : Result := transition .P .host .getAck p2hGetAckTmr s

/-- `P2H.GET_BIT_TMR`, key `0x1D` (R118). -/
def execP2hGetBitTmr (s : State) : Result := transition .P .host .getBit p2hTimeout s

/-- `P2H.GET_PARITY_TMR`, key `0x1F` (R119). -/
def execP2hGetParityTmr (s : State) : Result := transition .P .host .getParity p2hTimeout s

/-- `P2H.WAIT_STOP_TMR`, key `0x21` (R120). -/
def execP2hWaitStopTmr (s : State) : Result := transition .P .host .waitStop p2hTimeout s

/-- `P2H.PREP_START_TMR`, key `0x05` (R121): request-to-send. -/
def execP2hPrepStartTmr (s : State) : Result := transition .P .host .prepStart p2hPrepStartTmr s

/-- `P2H.SEND_START_EDGE`, key `0x06` (R122): CLOCK fall 1. -/
def execP2hSendStartEdge (s : State) : Result := transition .P .host .sendStart p2hSendStartEdge s

/-- `P2H.SEND_BIT_EDGE`, key `0x0A` (R123): CLOCK falls 2 to 9. -/
def execP2hSendBitEdge (s : State) : Result := transition .P .host .sendBit p2hSendBitEdge s

/-- `P2H.SEND_PARITY_EDGE`, key `0x0E` (R124): CLOCK fall 10. -/
def execP2hSendParityEdge (s : State) : Result := transition .P .host .sendParity p2hSendParityEdge s

/-- `P2H.SEND_STOP_EDGE`, key `0x12` (R125): CLOCK fall 11, the device's acknowledge. -/
def execP2hSendStopEdge (s : State) : Result := transition .P .host .sendStop p2hSendStopEdge s

/-- `P2H.SEND_BIT_TMR`, key `0x0B` (R126). -/
def execP2hSendBitTmr (s : State) : Result := transition .P .host .sendBit p2hTimeout s

/-- `P2H.SEND_PARITY_TMR`, key `0x0F` (R127). -/
def execP2hSendParityTmr (s : State) : Result := transition .P .host .sendParity p2hTimeout s

/-- `P2H.SEND_STOP_TMR`, key `0x13` (R128). -/
def execP2hSendStopTmr (s : State) : Result := transition .P .host .sendStop p2hTimeout s

end Sys2Proof.Machine
end

