-- ==== Sys2Proof/Machine/XtDevice.lean ====
section
/-!
DEFINITION. The XT device-role engine (spec/45_xt_device.md): instance `X` with role DEVICE. `CLK` is `XT_CLK`, `DATA`
is `XT_DATA`, `XHC` is `XT_HALF_CYCLE_US`.
-/

namespace Sys2Proof.Machine

open Sys2Proof

/-- `arm(XHC); st <- c`. -/
def xtdTick (c : St) (s : State) : State := setSt .X c (armCfg .X .xtHalfCycleUs s)

/-- `edge(OFF); hold <- 0; arm(XHC); st <- HOST_INHIBIT` (R191, R194). -/
def xtdInhibit (s : State) : State :=
  let s := setEdge .X .off s
  let s := setHold .X 0 s
  xtdTick .hostInhibit s

/-- The start of a frame in R191. -/
def xtdStartSend (s : State) : State :=
  let s := setEdge .X .off s
  let s := frameFromTx .X s
  let s := assertLine .xtData s
  let s := armCfg .X .xtStartUs s
  setSt .X .sendStart s

/-- The not-ready branch of R191: look again in one tick. -/
def xtdNotReady (s : State) : State :=
  let s := setEdge .X .off s
  let s := setHold .X 1 s
  xtdTick .holdoff s

/-- `xtd_check_bus()` (R191), the idle-entry function. -/
def xtdCheckBus (s : State) : State :=
  if level .xtClk s = false then xtdInhibit s
  else if s.x.txq.empty = false then
    if level .xtData s then xtdStartSend s else xtdNotReady s
  else
    let s := tmrOff .X s
    let s := setEdge .X .fall s
    setSt .X .idle s

/-- `xtd_abort()` (R192). -/
def xtdAbort (s : State) : State :=
  let s := raise (.abort s.x.st) s
  let s := releaseLine .xtData s
  let s := releaseLine .xtClk s
  let s := frameReset .X s
  xtdCheckBus s

/-- `xtd_reset_request()` (R193). -/
def xtdResetRequest (s : State) : State :=
  let s := clear .X .tx s
  let s := clear .X .rx s
  let s := push .X .tx (s.cfg.get .xtBatCode) s
  raise .resetRequest s

/-- The body of R195. -/
def xtdSendStartTmr (s : State) : State :=
  if level .xtClk s = false then xtdAbort s
  else
    let s := putBit .X s
    xtdTick .sendBit s

/-- The body of R196. -/
def xtdSendBitTmr (s : State) : State :=
  if level .xtClk s = false then xtdAbort s
  else
    let s := assertLine .xtClk s
    xtdTick .prepBit s

/-- The body of R197. -/
def xtdPrepBitTmr (s : State) : State :=
  let s := releaseLine .xtClk s
  if s.x.bitcnt < 8 then
    let s := putBit .X s
    xtdTick .sendBit s
  else
    let s := releaseLine .xtData s
    let s := setHold .X (s.cfg.get .xtHoldoffTicks) s
    let s := frameReset .X s
    xtdTick .holdoff s

/-- The body of R198. -/
def xtdHoldoffTmr (s : State) : State :=
  let s := setHold .X (s.x.hold - 1) s
  if s.x.hold = 0 then xtdCheckBus s else armCfg .X .xtHalfCycleUs s

/-- The counting of R199: `hold` saturates at 255, and the reset request is raised on the poll that makes it equal to
`XT_RESET_TICKS`. -/
def xtdCountInhibit (s : State) : State :=
  if s.x.hold < 255 then
    let s := setHold .X (s.x.hold + 1) s
    if s.x.hold = s.cfg.get .xtResetTicks then xtdResetRequest s else s
  else s

/-- The body of R199. -/
def xtdHostInhibitTmr (s : State) : State :=
  if level .xtClk s = false then
    let s := xtdCountInhibit s
    armCfg .X .xtHalfCycleUs s
  else xtdCheckBus s

/-- `XTD.IDLE_EDGE`, key `0xC0` (R194): the host pulled CLOCK low. -/
def execXtdIdleEdge (s : State) : Result := transition .X .device .idle xtdInhibit s

/-- `XTD.HOST_INHIBIT_TMR`, key `0xC3` (R199): one poll of an inhibit. -/
def execXtdHostInhibitTmr (s : State) : Result := transition .X .device .hostInhibit xtdHostInhibitTmr s

/-- `XTD.SEND_START_TMR`, key `0xC7` (R195): D0 replaces the pseudo start. -/
def execXtdSendStartTmr (s : State) : Result := transition .X .device .sendStart xtdSendStartTmr s

/-- `XTD.PREP_BIT_TMR`, key `0xC9` (R197): end of a CLOCK-low phase. -/
def execXtdPrepBitTmr (s : State) : Result := transition .X .device .prepBit xtdPrepBitTmr s

/-- `XTD.SEND_BIT_TMR`, key `0xCB` (R196): a CLOCK fall. -/
def execXtdSendBitTmr (s : State) : Result := transition .X .device .sendBit xtdSendBitTmr s

/-- `XTD.HOLDOFF_TMR`, key `0xD5` (R198): one holdoff tick. -/
def execXtdHoldoffTmr (s : State) : Result := transition .X .device .holdoff xtdHoldoffTmr s

end Sys2Proof.Machine
end

