-- ==== Sys2Proof/Machine/XtHost.lean ====
section
/-!
DEFINITION. The XT host-role engine (spec/44_xt_host.md): instance `X` with role HOST. `CLK` is `XT_CLK`, `DATA` is
`XT_DATA`.
-/

namespace Sys2Proof.Machine

open Sys2Proof

/-- `xth_idle()` (R181), the idle-entry function. -/
def xthIdle (s : State) : State :=
  let s := tmrOff .X s
  let s := setEdge .X .fall s
  setSt .X .idle s

/-- The body of R183. -/
def xthGetBitEdge (s : State) : State :=
  let s := getBit .X s
  if s.x.bitcnt = 8 then
    let s := push .X .rx s.x.acc s
    let s := frameReset .X s
    xthIdle s
  else
    let s := armCfg .X .xthBitTimeoutUs s
    setSt .X .getBit s

/-- The body of R182: the first fall already carries D0. -/
def xthIdleEdge (s : State) : State :=
  let s := frameStart .X 0 s
  xthGetBitEdge s

/-- The body of R184. -/
def xthGetBitTmr (s : State) : State :=
  let s := raise (.timeout .getBit) s
  let s := frameReset .X s
  xthIdle s

/-- The body of R185. -/
def xthResetTmr (s : State) : State :=
  let s := setHold .X (s.x.hold - 1) s
  if s.x.hold = 0 then
    let s := releaseLine .xtClk s
    xthIdle s
  else armCfg .X .xtHalfCycleUs s

/-- `XTH.IDLE_EDGE`, key `0x80` (R182): CLOCK fall 1. -/
def execXthIdleEdge (s : State) : Result := transition .X .host .idle xthIdleEdge s

/-- `XTH.GET_BIT_EDGE`, key `0x9C` (R183): CLOCK falls 2 to 8. -/
def execXthGetBitEdge (s : State) : Result := transition .X .host .getBit xthGetBitEdge s

/-- `XTH.GET_BIT_TMR`, key `0x9D` (R184): the frame is abandoned. -/
def execXthGetBitTmr (s : State) : Result := transition .X .host .getBit xthGetBitTmr s

/-- `XTH.RESET_TMR`, key `0xA7` (R185): one tick of the reset pulse. -/
def execXthResetTmr (s : State) : Result := transition .X .host .reset xthResetTmr s

end Sys2Proof.Machine
end

