-- ==== Sys2Proof/Machine/Foreground.lean ====
section
/-!
DEFINITION. The foreground's instance, queue and configuration commands (spec/46_foreground_commands.md R211 to
R220). The rules of `P` and `X` are one, written over the instance (R222).
-/

namespace Sys2Proof.Machine

open Sys2Proof

/-- The idle-entry function of an instance, by role (46_foreground_commands.md, opening; R222). An instance without a
role has no engine and runs none. -/
def idleEntry (i : Inst) (s : State) : State :=
  match engineOf i (s.inst i).role with
  | some .p2h => p2hCheckForData s
  | some .p2d => p2dCheckBus s
  | some .xth => xthIdle s
  | some .xtd => xtdCheckBus s
  | none => s

/-- The common part of R211 and R216: lines released, the instance's timer stopped, queues cleared, frame registers
and `hold` zero, `ack_seen` 1 for `P`, then the idle-entry function. -/
def reinit (i : Inst) (s : State) : State :=
  let s := releaseLine (clkOf i) s
  let s := releaseLine (dataOf i) s
  let s := tmrOff (ownerOf i) s
  let s := clear i .tx s
  let s := clear i .rx s
  let s := frameReset i s
  let s := setHold i 0 s
  let s := if i = .P then setAckSeen true s else s
  idleEntry i s

/-- The rule of `Q.INIT` (R211). -/
def initCommand (i : Inst) (rr : Byte) (s : State) : State :=
  match roleOfOperand rr with
  | some r => if (s.inst i).role = .none then answer 0 (reinit i (setRole i r s)) else refuse s
  | none => refuse s

/-- The rule of `Q.RESET` (R216). -/
def resetCommand (i : Inst) (s : State) : State :=
  if (s.inst i).role = .none then refuse s else answer 0 (reinit i s)

/-- The rule of `Q.PUT` (R212). A full queue blocks the command, which this total model answers as refused (R210;
notes/assumptions/6.md). -/
def putCommand (i : Inst) (b : Byte) (s : State) : State :=
  if (s.inst i).role = .none then refuse s
  else if i = .X ∧ (s.inst i).role = .host then refuse s
  else if (s.inst i).txq.full s.slots then refuse s
  else
    let s := push i .tx b s
    let s := if (s.inst i).st = .idle then idleEntry i s else s
    answer 0 s

/-- The rule of `Q.GET` (R213). An empty queue blocks the command, which this total model answers as refused (R210;
notes/assumptions/6.md). -/
def getCommand (i : Inst) (s : State) : State :=
  if (s.inst i).role = .none then refuse s
  else if i = .X ∧ (s.inst i).role = .device then refuse s
  else if (s.inst i).rxq.empty then refuse s
  else answer (s.inst i).rxq.front (setQueue i .rx ((s.inst i).rxq.drop s.slots) s)

/-- The rule of `Q.RXCOUNT` and `Q.TXCOUNT` (R214, R215): `zext_8` of the count, which is below `QUEUE_SLOTS`. -/
def countCommand (i : Inst) (d : Dir) (s : State) : State :=
  answer (BitVec.ofNat 8 (((s.inst i).queue d).count s.slots)) s

/-- The rule of `Q.STATE` (R217): `zext_8` of the state code. -/
def stateCommand (i : Inst) (s : State) : State := answer ((s.inst i).st.code.setWidth 8) s

/-- The rule of `X.HRESET` (R218). -/
def hresetCommand (s : State) : State :=
  if s.x.role ≠ .host ∨ s.x.st ≠ .idle then refuse s
  else
    let s := setEdge .X .off s
    let s := assertLine .xtClk s
    let s := setHold .X (s.cfg.get .xthResetTicks) s
    let s := armCfg .X .xtHalfCycleUs s
    answer 0 (setSt .X .reset s)

/-- The rule of `CFG.WR` (R219). -/
def cfgWrCommand (r : BitVec 4) (v : Byte) (s : State) : State :=
  match cfgOfIndex r with
  | some n => if zeroReserved n ∧ v = 0 then refuse s else answer 0 (setCfg n (cfgStored n v) s)
  | none => refuse s

/-- The rule of `CFG.RD` (R220). -/
def cfgRdCommand (r : BitVec 4) (s : State) : State :=
  match cfgOfIndex r with
  | some n => answer (s.cfg.get n) s
  | none => refuse s

/-- `P.INIT` (R211). -/
def execPInit (rr : Byte) (s : State) : Result := asStep (initCommand .P rr) s

/-- `P.PUT` (R212). -/
def execPPut (b : Byte) (s : State) : Result := asStep (putCommand .P b) s

/-- `P.GET` (R213). -/
def execPGet (s : State) : Result := asStep (getCommand .P) s

/-- `P.RXCOUNT` (R214). -/
def execPRxcount (s : State) : Result := asStep (countCommand .P .rx) s

/-- `P.TXCOUNT` (R215). -/
def execPTxcount (s : State) : Result := asStep (countCommand .P .tx) s

/-- `P.RESET` (R216). -/
def execPReset (s : State) : Result := asStep (resetCommand .P) s

/-- `P.STATE` (R217). -/
def execPState (s : State) : Result := asStep (stateCommand .P) s

/-- `X.INIT` (R211). -/
def execXInit (rr : Byte) (s : State) : Result := asStep (initCommand .X rr) s

/-- `X.PUT` (R212). -/
def execXPut (b : Byte) (s : State) : Result := asStep (putCommand .X b) s

/-- `X.GET` (R213). -/
def execXGet (s : State) : Result := asStep (getCommand .X) s

/-- `X.RXCOUNT` (R214). -/
def execXRxcount (s : State) : Result := asStep (countCommand .X .rx) s

/-- `X.TXCOUNT` (R215). -/
def execXTxcount (s : State) : Result := asStep (countCommand .X .tx) s

/-- `X.RESET` (R216). -/
def execXReset (s : State) : Result := asStep (resetCommand .X) s

/-- `X.STATE` (R217). -/
def execXState (s : State) : Result := asStep (stateCommand .X) s

/-- `X.HRESET` (R218). -/
def execXHreset (s : State) : Result := asStep hresetCommand s

/-- `CFG.WR` (R219). -/
def execCfgWr (r : BitVec 4) (v : Byte) (s : State) : Result := asStep (cfgWrCommand r v) s

/-- `CFG.RD` (R220). -/
def execCfgRd (r : BitVec 4) (s : State) : Result := asStep (cfgRdCommand r) s

end Sys2Proof.Machine
end

