-- ==== Sys2Proof/Machine/Frames.lean ====
section
/-!
DEFINITION. Wire frames as the far end plays them (spec/30_encoding.md R60 to R62): the pseudo-operations of R73, each
expanding to environment events, and the three frame rows of the opcode table, which put their expansion in front of
`script` (notes/assumptions/12.md).
-/

namespace Sys2Proof.Machine

open Sys2Proof

/-- The 4-bit id of a line (R80). -/
def lineId : Line → BitVec 4
  | .ps2Clk => 0
  | .ps2Data => 1
  | .xtClk => 2
  | .xtData => 3
  | .parStrobe => 4
  | .parReset => 5
  | .modeSel => 6

/-- `ENV.LOW L`, also spelt `ENV.FALL L` (R67, R73). -/
def envLow (l : Line) : List Code := [encode (.envLow (lineId l))]

/-- `ENV.REL L`, also spelt `ENV.RISE L` (R67, R73). -/
def envRel (l : Line) : List Code := [encode (.envRel (lineId l))]

/-- `ENV.WAIT n` (R73). -/
def envWait (n : Nat) : List Code := List.replicate n (encode .envTick)

/-- `ENV.PULSE L, a, b` (R73). -/
def envPulse (l : Line) (a b : Nat) : List Code := envLow l ++ envWait a ++ envRel l ++ envWait b

/-- `ENV.SET L, v` (R73). -/
def envSet (l : Line) (v : Bool) : List Code := if v then envRel l else envLow l

/-- One clocked symbol of `ENV.PS2_D2H` (R73): CLOCK falls, the next symbol goes on DATA, CLOCK rises. -/
def envPs2Symbol (h : Nat) (s : Bool) : List Code :=
  envLow .ps2Clk ++ envWait h ++ envSet .ps2Data s ++ envRel .ps2Clk ++ envWait h

/-- `ENV.PS2_D2H v, h` (R73): a device-to-host frame (R60) with half period `h`. -/
def envPs2D2h (v : Byte) (h : Nat) : List Code :=
  envLow .ps2Data ++ envWait (2 * h)
    ++ (dataSymbols v ++ [oddParity v, true]).flatMap (envPs2Symbol h)
    ++ envLow .ps2Clk ++ envWait h ++ envRel .ps2Clk

/-- A host-to-device frame (R61) as the far-end host plays it to the PS/2 device engine, in the form of
spec/95_test_vectors.md V-D2: CLOCK low for `inhibit` microseconds, DATA low, CLOCK released; D0 at the device's first
CLOCK fall, `h` later, and each next symbol at the next fall, `2 h` later; then the wait through the acknowledge
symbol, which the device drives, to CLOCK rise 11. -/
def envPs2H2d (v : Byte) (inhibit h : Nat) : List Code :=
  envLow .ps2Clk ++ envWait inhibit ++ envLow .ps2Data ++ envRel .ps2Clk
    ++ envWait h ++ envSet .ps2Data (v.getLsbD 0)
    ++ ((dataSymbols v).tail ++ [oddParity v, true]).flatMap (fun s => envWait (2 * h) ++ envSet .ps2Data s)
    ++ envWait (3 * h)

/-- One clocked symbol of `ENV.XT_D2H` (R73): a CLOCK pulse, then what follows it. -/
def envXtPulse (h : Nat) : List Code := envLow .xtClk ++ envWait h ++ envRel .xtClk

/-- `ENV.XT_D2H v, h` (R73): an XT frame (R62) with half period `h`. -/
def envXtD2h (v : Byte) (h : Nat) : List Code :=
  envLow .xtData ++ envWait Config.frameXtStart ++ envSet .xtData (v.getLsbD 0) ++ envWait h
    ++ (dataSymbols v).tail.flatMap (fun s => envXtPulse h ++ envSet .xtData s ++ envWait h)
    ++ envXtPulse h ++ envRel .xtData

/-- The far end begins to play `codes`: they come before everything else it and the foreground will do. -/
def play (codes : List Code) (s : State) : State := { s with script := codes ++ s.script }

/-- `FRAME.PS2_D2H` (R60, R73). -/
def execFramePs2D2h (v : Byte) (h : Nat) (s : State) : Result := asStep (play (envPs2D2h v h)) s

/-- `FRAME.PS2_H2D` (R61): the inhibit lasts `PS2H_INHIBIT_US`. -/
def execFramePs2H2d (v : Byte) (h : Nat) (s : State) : Result :=
  asStep (play (envPs2H2d v (s.cfg.get .ps2hInhibitUs).toNat h)) s

/-- `FRAME.XT_D2H` (R62, R73). -/
def execFrameXtD2h (v : Byte) (h : Nat) (s : State) : Result := asStep (play (envXtD2h v h)) s

end Sys2Proof.Machine
end

