-- ==== Sys2Proof/Machine/Irq.lean ====
section
/-!
DEFINITION. The two handler dispatches (spec/60_exceptions.md R249, R250, R257 to R259): take the notification, run the
transition its dispatch key selects, end the step with R99.
-/

namespace Sys2Proof.Machine

open Sys2Proof

/-- Run a transition for the dispatched (instance, event). An operation that is no transition has no rule (R259). -/
def runTransition (i : Inst) (ev : Ev) (t : Instr) (s : State) : Result :=
  match t with
  | .p2hIdleEdge => execP2hIdleEdge s
  | .p2hPrepStartTmr => execP2hPrepStartTmr s
  | .p2hSendStartEdge => execP2hSendStartEdge s
  | .p2hSendBitEdge => execP2hSendBitEdge s
  | .p2hSendBitTmr => execP2hSendBitTmr s
  | .p2hSendParityEdge => execP2hSendParityEdge s
  | .p2hSendParityTmr => execP2hSendParityTmr s
  | .p2hSendStopEdge => execP2hSendStopEdge s
  | .p2hSendStopTmr => execP2hSendStopTmr s
  | .p2hGetBitEdge => execP2hGetBitEdge s
  | .p2hGetBitTmr => execP2hGetBitTmr s
  | .p2hGetParityEdge => execP2hGetParityEdge s
  | .p2hGetParityTmr => execP2hGetParityTmr s
  | .p2hWaitStopEdge => execP2hWaitStopEdge s
  | .p2hWaitStopTmr => execP2hWaitStopTmr s
  | .p2hGetAckTmr => execP2hGetAckTmr s
  | .p2dIdleEdge => execP2dIdleEdge s
  | .p2dHostInhibitEdge => execP2dHostInhibitEdge s
  | .p2dPrepStartTmr => execP2dPrepStartTmr s
  | .p2dSendStartTmr => execP2dSendStartTmr s
  | .p2dPrepBitTmr => execP2dPrepBitTmr s
  | .p2dSendBitTmr => execP2dSendBitTmr s
  | .p2dPrepParityTmr => execP2dPrepParityTmr s
  | .p2dSendParityTmr => execP2dSendParityTmr s
  | .p2dPrepStopTmr => execP2dPrepStopTmr s
  | .p2dSendStopTmr => execP2dSendStopTmr s
  | .p2dHoldoffTmr => execP2dHoldoffTmr s
  | .p2dWaitStartTmr => execP2dWaitStartTmr s
  | .p2dGetStartTmr => execP2dGetStartTmr s
  | .p2dWaitBitTmr => execP2dWaitBitTmr s
  | .p2dGetBitTmr => execP2dGetBitTmr s
  | .p2dGetParityTmr => execP2dGetParityTmr s
  | .p2dWaitStopTmr => execP2dWaitStopTmr s
  | .p2dWaitAckTmr => execP2dWaitAckTmr s
  | .p2dGetAckTmr => execP2dGetAckTmr s
  | .xthIdleEdge => execXthIdleEdge s
  | .xthGetBitEdge => execXthGetBitEdge s
  | .xthGetBitTmr => execXthGetBitTmr s
  | .xthResetTmr => execXthResetTmr s
  | .xtdIdleEdge => execXtdIdleEdge s
  | .xtdHostInhibitTmr => execXtdHostInhibitTmr s
  | .xtdSendStartTmr => execXtdSendStartTmr s
  | .xtdPrepBitTmr => execXtdPrepBitTmr s
  | .xtdSendBitTmr => execXtdSendBitTmr s
  | .xtdHoldoffTmr => execXtdHoldoffTmr s
  | _ => .fault (.spuriousDispatch i (s.inst i).st ev)

/-- One handler step of an instance from the state `before` (R249): `taken` is the state after the notification has
been taken. A key without a rule is the fault of R259; otherwise the transition runs to completion and R99 ends the
step (R250). -/
def runHandler (i : Inst) (ev : Ev) (before taken : State) : Result :=
  match selectTransition i ev taken with
  | none => .fault (.spuriousDispatch i (taken.inst i).st ev)
  | some t =>
    match runTransition i ev t taken with
    | .next s => .next (detectEdges before s)
    | .fault f => .fault f
    | .refused r => .refused r

/-- `IRQ.EDGE` (R257): enabled when the instance's edge notification is the one to be dispatched. -/
def execIrqEdge (i : Inst) (s : State) : Result :=
  if deliverable s = some (.edge i) then runHandler i .edge s (takeEdge i s) else .refused .notEnabled

/-- `IRQ.TMR` (R258): enabled when the timer notification is the one to be dispatched; the handler is that of the
timer's owner. -/
def execIrqTmr (s : State) : Result :=
  if deliverable s = some .timer then
    match ownerInst s.tmr.owner with
    | some i => runHandler i .tmr s (takeTimer s)
    | none => .refused .notEnabled
  else .refused .notEnabled

end Sys2Proof.Machine
end

