-- ==== Sys2Proof/Machine/Lines.lean ====
section
/-!
DEFINITION. The line controller's commands (spec/40_line_io.md R87 to R89).
-/

namespace Sys2Proof.Machine

open Sys2Proof

/-- The common part of R87 and R88: refuse a line id above 6 and a line an engine owns, else act on the line. -/
def lineCommand (l : Byte) (act : Line → State → State) (s : State) : State :=
  match lineOfId l.toNat with
  | some n => if lineOwned n s then refuse s else answer 0 (act n s)
  | none => refuse s

/-- `LINE.READ` (R89): `zext_8` of the level, on any line. -/
def lineReadCommand (l : Byte) (s : State) : State :=
  match lineOfId l.toNat with
  | some n => answer (byteOfBit (level n s)) s
  | none => refuse s

/-- `LINE.ASSERT` (R87). -/
def execLineAssert (l : Byte) (s : State) : Result := asStep (lineCommand l assertLine) s

/-- `LINE.RELEASE` (R88). -/
def execLineRelease (l : Byte) (s : State) : Result := asStep (lineCommand l releaseLine) s

/-- `LINE.READ` (R89). -/
def execLineRead (l : Byte) (s : State) : Result := asStep (lineReadCommand l) s

end Sys2Proof.Machine
end

