-- ==== Sys2Proof/Machine/TimerEdge.lean ====
section
/-!
DEFINITION. The timer and edge-detector commands of the foreground (spec/41_timer_edge.md R101 to R105) and the
environment events (R93, R106, R107).
-/

namespace Sys2Proof.Machine

open Sys2Proof

/-- An engine owns the timer (R101, R102). -/
def timerOwnedByEngine (s : State) : Bool := (ownerInst s.tmr.owner).isSome

/-- The rule of `TMR.ARM` (R101): 0 and an engine's timer are refused; the foreground arms as agent `FG`. -/
def tmrArmCommand (d : Byte) (s : State) : State :=
  if d = 0 then refuse s
  else if timerOwnedByEngine s then refuse s
  else answer 0 (arm .FG d s)

/-- The rule of `TMR.DISABLE` (R102). -/
def tmrDisableCommand (s : State) : State :=
  if timerOwnedByEngine s then refuse s else answer 0 (stopTimer s)

/-- The rule of `EDGE.SET` (R104): mode 3 and the detector of an instance with a role are refused. -/
def edgeSetCommand (i : Inst) (m : BitVec 2) (s : State) : State :=
  match modeOfOperand m with
  | some n => if (s.inst i).role = .none then answer 0 (setEdge i n s) else refuse s
  | none => refuse s

/-- The rule of `ENV.TICK` (R93): one microsecond passes. R74 counts down from 1 or more only; a running timer at 0,
which no run reaches, goes to 255 (DESIGN CHOICE, notes/assumptions/9.md). -/
def tick (s : State) : State :=
  let s := { s with now := s.now + 1 }
  if s.tmr.run then
    let s := { s with tmr := { s.tmr with cnt := s.tmr.cnt - 1 } }
    if s.tmr.cnt = 0 then { s with tmr := { s.tmr with run := false, pend := true } } else s
  else s

/-- The rule of `ENV.LOW` and `ENV.REL` (R106, R107) on a line id; no line has an id above 6 (R80). -/
def farEnd (l : BitVec 4) (d : Drive) (s : State) : Result :=
  match lineOfId l.toNat with
  | some n => asStep (setExt n d) s
  | none => .refused .noSuchLine

/-- `TMR.ARM` (R101). -/
def execTmrArm (d : Byte) (s : State) : Result := asStep (tmrArmCommand d) s

/-- `TMR.DISABLE` (R102). -/
def execTmrDisable (s : State) : Result := asStep tmrDisableCommand s

/-- `TMR.STATUS` (R103). -/
def execTmrStatus (s : State) : Result := asStep (fun s => answer (timerStatus s.tmr) s) s

/-- `EDGE.SET` (R104). -/
def execEdgeSet (i : Inst) (m : BitVec 2) (s : State) : Result := asStep (edgeSetCommand i m) s

/-- `EDGE.STATUS` (R105). -/
def execEdgeStatus (i : Inst) (s : State) : Result := asStep (fun s => answer (edgeStatus (s.inst i)) s) s

/-- `ENV.TICK` (R93). -/
def execEnvTick (s : State) : Result := asStep tick s

/-- `ENV.LOW` (R106). -/
def execEnvLow (l : BitVec 4) (s : State) : Result := farEnd l .low s

/-- `ENV.REL` (R107). -/
def execEnvRel (l : BitVec 4) (s : State) : Result := farEnd l .rel s

end Sys2Proof.Machine
end

