-- ==== Sys2Proof/Machine/Dispatch.lean ====
section
/-! DEFINITION. The one dispatch from an operation to its meaning, one arm per row of spec/opcode_table.json. -/

namespace Sys2Proof.Machine

open Sys2Proof

/-- The meaning of an operation. -/
def exec (i : Instr) (s : State) : Host.Outcome State Fault Refusal :=
  match i with
  | .lineAssert l => Sys2Proof.Machine.execLineAssert l s
  | .lineRelease l => Sys2Proof.Machine.execLineRelease l s
  | .lineRead l => Sys2Proof.Machine.execLineRead l s
  | .tmrArm d => Sys2Proof.Machine.execTmrArm d s
  | .tmrDisable => Sys2Proof.Machine.execTmrDisable s
  | .tmrStatus => Sys2Proof.Machine.execTmrStatus s
  | .edgeSet j m => Sys2Proof.Machine.execEdgeSet j m s
  | .edgeStatus j => Sys2Proof.Machine.execEdgeStatus j s
  | .pInit rr => Sys2Proof.Machine.execPInit rr s
  | .pPut b => Sys2Proof.Machine.execPPut b s
  | .pGet => Sys2Proof.Machine.execPGet s
  | .pRxcount => Sys2Proof.Machine.execPRxcount s
  | .pTxcount => Sys2Proof.Machine.execPTxcount s
  | .pReset => Sys2Proof.Machine.execPReset s
  | .pState => Sys2Proof.Machine.execPState s
  | .xInit rr => Sys2Proof.Machine.execXInit rr s
  | .xPut b => Sys2Proof.Machine.execXPut b s
  | .xGet => Sys2Proof.Machine.execXGet s
  | .xRxcount => Sys2Proof.Machine.execXRxcount s
  | .xTxcount => Sys2Proof.Machine.execXTxcount s
  | .xReset => Sys2Proof.Machine.execXReset s
  | .xState => Sys2Proof.Machine.execXState s
  | .xHreset => Sys2Proof.Machine.execXHreset s
  | .cfgWr r v => Sys2Proof.Machine.execCfgWr r v s
  | .cfgRd r => Sys2Proof.Machine.execCfgRd r s
  | .envTick => Sys2Proof.Machine.execEnvTick s
  | .envLow l => Sys2Proof.Machine.execEnvLow l s
  | .envRel l => Sys2Proof.Machine.execEnvRel l s
  | .irqEdge j => Sys2Proof.Machine.execIrqEdge j s
  | .irqTmr => Sys2Proof.Machine.execIrqTmr s
  | .p2hIdleEdge => Sys2Proof.Machine.execP2hIdleEdge s
  | .p2hPrepStartTmr => Sys2Proof.Machine.execP2hPrepStartTmr s
  | .p2hSendStartEdge => Sys2Proof.Machine.execP2hSendStartEdge s
  | .p2hSendBitEdge => Sys2Proof.Machine.execP2hSendBitEdge s
  | .p2hSendBitTmr => Sys2Proof.Machine.execP2hSendBitTmr s
  | .p2hSendParityEdge => Sys2Proof.Machine.execP2hSendParityEdge s
  | .p2hSendParityTmr => Sys2Proof.Machine.execP2hSendParityTmr s
  | .p2hSendStopEdge => Sys2Proof.Machine.execP2hSendStopEdge s
  | .p2hSendStopTmr => Sys2Proof.Machine.execP2hSendStopTmr s
  | .p2hGetBitEdge => Sys2Proof.Machine.execP2hGetBitEdge s
  | .p2hGetBitTmr => Sys2Proof.Machine.execP2hGetBitTmr s
  | .p2hGetParityEdge => Sys2Proof.Machine.execP2hGetParityEdge s
  | .p2hGetParityTmr => Sys2Proof.Machine.execP2hGetParityTmr s
  | .p2hWaitStopEdge => Sys2Proof.Machine.execP2hWaitStopEdge s
  | .p2hWaitStopTmr => Sys2Proof.Machine.execP2hWaitStopTmr s
  | .p2hGetAckTmr => Sys2Proof.Machine.execP2hGetAckTmr s
  | .p2dIdleEdge => Sys2Proof.Machine.execP2dIdleEdge s
  | .p2dHostInhibitEdge => Sys2Proof.Machine.execP2dHostInhibitEdge s
  | .p2dPrepStartTmr => Sys2Proof.Machine.execP2dPrepStartTmr s
  | .p2dSendStartTmr => Sys2Proof.Machine.execP2dSendStartTmr s
  | .p2dPrepBitTmr => Sys2Proof.Machine.execP2dPrepBitTmr s
  | .p2dSendBitTmr => Sys2Proof.Machine.execP2dSendBitTmr s
  | .p2dPrepParityTmr => Sys2Proof.Machine.execP2dPrepParityTmr s
  | .p2dSendParityTmr => Sys2Proof.Machine.execP2dSendParityTmr s
  | .p2dPrepStopTmr => Sys2Proof.Machine.execP2dPrepStopTmr s
  | .p2dSendStopTmr => Sys2Proof.Machine.execP2dSendStopTmr s
  | .p2dHoldoffTmr => Sys2Proof.Machine.execP2dHoldoffTmr s
  | .p2dWaitStartTmr => Sys2Proof.Machine.execP2dWaitStartTmr s
  | .p2dGetStartTmr => Sys2Proof.Machine.execP2dGetStartTmr s
  | .p2dWaitBitTmr => Sys2Proof.Machine.execP2dWaitBitTmr s
  | .p2dGetBitTmr => Sys2Proof.Machine.execP2dGetBitTmr s
  | .p2dGetParityTmr => Sys2Proof.Machine.execP2dGetParityTmr s
  | .p2dWaitStopTmr => Sys2Proof.Machine.execP2dWaitStopTmr s
  | .p2dWaitAckTmr => Sys2Proof.Machine.execP2dWaitAckTmr s
  | .p2dGetAckTmr => Sys2Proof.Machine.execP2dGetAckTmr s
  | .xthIdleEdge => Sys2Proof.Machine.execXthIdleEdge s
  | .xthGetBitEdge => Sys2Proof.Machine.execXthGetBitEdge s
  | .xthGetBitTmr => Sys2Proof.Machine.execXthGetBitTmr s
  | .xthResetTmr => Sys2Proof.Machine.execXthResetTmr s
  | .xtdIdleEdge => Sys2Proof.Machine.execXtdIdleEdge s
  | .xtdHostInhibitTmr => Sys2Proof.Machine.execXtdHostInhibitTmr s
  | .xtdSendStartTmr => Sys2Proof.Machine.execXtdSendStartTmr s
  | .xtdPrepBitTmr => Sys2Proof.Machine.execXtdPrepBitTmr s
  | .xtdSendBitTmr => Sys2Proof.Machine.execXtdSendBitTmr s
  | .xtdHoldoffTmr => Sys2Proof.Machine.execXtdHoldoffTmr s
  | .framePs2D2h v h => Sys2Proof.Machine.execFramePs2D2h v h s
  | .framePs2H2d v h => Sys2Proof.Machine.execFramePs2H2d v h s
  | .frameXtD2h v h => Sys2Proof.Machine.execFrameXtD2h v h s

end Sys2Proof.Machine
end

