-- ==== Sys2Proof/Machine/Fetch.lean ====
section
/-!
DEFINITION. What comes next (spec/00_scope.md R6, 60_exceptions.md R248, R249): a deliverable notification, else the
head of `script`, else the passing of time; and how a word of the opcode table is put where the next step finds it.
-/

namespace Sys2Proof.Machine

open Sys2Proof

/-- What the next step is. -/
inductive Fetched where
  /-- Run the operation on the state. -/
  | run (i : Instr) (s : State)
  /-- The block has answered an illegal command word; this is the state after it. -/
  | answered (s : State)
  /-- There is no such step. -/
  | stop (r : Refusal)
  deriving DecidableEq, Repr

/-- The next word of `script` as a step, `s` being the state with the word taken off. An illegal command word is
refused by the block with no effect (R70 (a), R221), which is a step like any other (R210, R99); a dispatch key is not
for anyone to issue (R251). -/
def fetchCode (c : Code) (s : State) : Fetched :=
  match c with
  | .command w =>
    match decodeCommand w with
    | .ok i => .run i s
    | .error _ => .answered (detectEdges s (refuse s))
  | .event w =>
    match decodeEvent w with
    | .ok i => .run i s
    | .error e => .stop (.noSuchEvent e)
  | .frame k symbols h =>
    match decodeFrame k symbols h with
    | .ok i => .run i s
    | .error e => .stop (.noSuchEvent e)
  | .key _ => .stop .notEnabled

/-- The next step (R6): the dispatch of a deliverable notification before anything else; otherwise the head of
`script`; with `script` empty nobody acts and time passes (notes/assumptions/5.md). -/
def fetch (s : State) : Fetched :=
  match deliverable s with
  | some (.edge i) => .run (.irqEdge i) s
  | some .timer => .run .irqTmr s
  | none =>
    match s.script with
    | [] => .run .envTick s
    | c :: rest => fetchCode c { s with script := rest }

/-- No notification is deliverable any more: what `withFetchWord` needs for its word to be the next step. -/
def quieten (s : State) : State :=
  let s := s.modInst .P (fun v => { v with edgePend := false })
  let s := s.modInst .X (fun v => { v with edgePend := false })
  if tmrDeliverable s then takeTimer s else s

/-- The instance and the role an engine is (R69, R11). -/
def engineInst : Engine → Inst × Role
  | .p2h => (.P, .host)
  | .p2d => (.P, .device)
  | .xth => (.X, .host)
  | .xtd => (.X, .device)

/-- A notification of an instance stands deliverable. -/
def withNotification (i : Inst) (ev : Ev) (s : State) : State :=
  match ev with
  | .edge => s.modInst i (fun v => { v with edgePend := true })
  | .tmr => { s with tmr := { s.tmr with run := false, pend := true, owner := ownerOf i } }

/-- The next step dispatches the triple (R69): the engine's instance has its role and stands in the state, and the
notification is deliverable. -/
def withTriple (e : Engine) (c : St) (ev : Ev) (s : State) : State :=
  let i := (engineInst e).1
  let s := quieten s
  let s := s.modInst i (fun v => { v with role := (engineInst e).2, st := c })
  withNotification i ev s

/-- The next step dispatches a notification of the instance in its own engine and state, if the pair has a rule;
otherwise in its engine (the host's, if it has no role) and the state `c`. -/
def withDispatch (i : Inst) (ev : Ev) (c : St) (s : State) : State :=
  let e := (engineOf i (s.inst i).role).getD (match i with | .P => .p2h | .X => .xth)
  let c := if (transitionOf e (s.inst i).st ev).isSome then (s.inst i).st else c
  withTriple e c ev s

/-- The next step fetches the word from `script`. -/
def withScriptWord (c : Code) (s : State) : State :=
  let s := quieten s
  { s with script := c :: s.script }

/-- The next step runs the word: a command, an ENV event or a frame is put at the head of `script`; a dispatch key and
an IRQ word are no one's to issue, so the state that dispatches them is set up (R249, R257, R258). -/
def placeCode (c : Code) (s : State) : State :=
  match decode c with
  | .ok (.irqEdge i) => withDispatch i .edge .idle s
  | .ok .irqTmr => withDispatch .P .tmr .getBit s
  | _ =>
    match c with
    | .key k =>
      match St.ofCode (k.extractLsb' 1 5) with
      | some st => withTriple (Engine.ofCode (k.extractLsb' 6 2)) st (Ev.ofBit (k.getLsbD 0)) s
      | none => s
    | _ => withScriptWord c s

end Sys2Proof.Machine
end

