-- ==== Sys2Proof/Machine/Step.lean ====
section
/-! DEFINITION. One step of the block (spec/00_scope.md R6) and the host's fetch interface. -/

namespace Sys2Proof.Machine

open Sys2Proof

/-- One step (R6): what `fetch` says comes next. -/
def step (s : State) : Host.Outcome State Fault Refusal :=
  match fetch s with
  | .run i t => exec i t
  | .answered t => .next t
  | .stop r => .refused r

/-- The state whose next step runs the word of the opcode table (`nbits` as `decodeTableWord` takes it;
notes/assumptions/13.md). -/
def State.withFetchWord (s : State) (nbits w : Nat) : State :=
  match codeOfTableWord nbits w with
  | some c => placeCode c s
  | none => s

end Sys2Proof.Machine
end

