-- ==== Sys2Proof/WellFormed.lean ====
section
/-!
DEFINITION. The legal operand ranges of an operation: the "legal" columns of spec/opcode_table.json, with R70 (a),
R29, R66 and R96. An operation that is not well formed still decodes; a command that is not well formed is refused by
its own rule, with no effect.
-/

namespace Sys2Proof

/-- A line id of R80, 0 to 6. -/
def legalLine (l : Nat) : Bool := l ≤ 6

/-- A delay of R96, 1 to 255. -/
def legalDelay (d : Byte) : Bool := d != 0

/-- An edge mode of R104, 0 to 2. -/
def legalMode (m : BitVec 2) : Bool := m != 3

/-- A role operand of R211, 1 or 2. -/
def legalRole (rr : Byte) : Bool := rr == 1 || rr == 2

/-- A `cfg` index of R29, 0 to 12. -/
def legalCfgIndex (r : BitVec 4) : Bool := r.toNat ≤ 12

/-- A value `cfg[r]` may be given (R29): 0 is reserved in the timing registers 0 to 10. -/
def legalCfgValue (r : BitVec 4) (v : Byte) : Bool := !(r.toNat ≤ 10 && v == 0)

/-- Every operand lies in the range its rule gives it. -/
def WellFormed : Instr → Bool
  | .lineAssert l | .lineRelease l | .lineRead l => legalLine l.toNat
  | .envLow l | .envRel l => legalLine l.toNat
  | .tmrArm d => legalDelay d
  | .edgeSet _ m => legalMode m
  | .pInit rr | .xInit rr => legalRole rr
  | .cfgWr r v => legalCfgIndex r && legalCfgValue r v
  | .cfgRd r => legalCfgIndex r
  | .tmrDisable | .tmrStatus | .edgeStatus _ | .pPut _ | .pGet | .pRxcount | .pTxcount | .pReset | .pState
  | .xPut _ | .xGet | .xRxcount | .xTxcount | .xReset | .xState | .xHreset | .envTick | .irqEdge _ | .irqTmr
  | .p2hIdleEdge | .p2hPrepStartTmr | .p2hSendStartEdge | .p2hSendBitEdge | .p2hSendBitTmr | .p2hSendParityEdge
  | .p2hSendParityTmr | .p2hSendStopEdge | .p2hSendStopTmr | .p2hGetBitEdge | .p2hGetBitTmr | .p2hGetParityEdge
  | .p2hGetParityTmr | .p2hWaitStopEdge | .p2hWaitStopTmr | .p2hGetAckTmr | .p2dIdleEdge | .p2dHostInhibitEdge
  | .p2dPrepStartTmr | .p2dSendStartTmr | .p2dPrepBitTmr | .p2dSendBitTmr | .p2dPrepParityTmr | .p2dSendParityTmr
  | .p2dPrepStopTmr | .p2dSendStopTmr | .p2dHoldoffTmr | .p2dWaitStartTmr | .p2dGetStartTmr | .p2dWaitBitTmr
  | .p2dGetBitTmr | .p2dGetParityTmr | .p2dWaitStopTmr | .p2dWaitAckTmr | .p2dGetAckTmr | .xthIdleEdge
  | .xthGetBitEdge | .xthGetBitTmr | .xthResetTmr | .xtdIdleEdge | .xtdHostInhibitTmr | .xtdSendStartTmr
  | .xtdPrepBitTmr | .xtdSendBitTmr | .xtdHoldoffTmr | .framePs2D2h _ _ | .framePs2H2d _ _ | .frameXtD2h _ _ => true

end Sys2Proof
end

