-- ==== Sys2Proof/Safety.lean ====
section
/-!
DEFINITION. What counts as a safe run, in the terms the claims use: the invariant of spec/10_state.md R28 with the
per-state tables of 42_ps2_host.md R130, 43_ps2_device.md R164, 44_xt_host.md R187 and 45_xt_device.md R201; the
inputs the environment and the foreground can give; quiescence (R285); the relations of R280; the illegal command
words of 30_encoding.md R70 (a); the bytes of a queue; the state after INIT or RESET (R271); a run of transitions with
the DATA symbols the far end plays, and the lines a run of transitions shows.
-/

namespace Sys2Proof.Machine

open Sys2Proof

/-- What a per-state table says of `own[DATA]`: a fixed drive, the last data symbol put (the start symbol, `LOW`, while
`bitcnt` = 0), or the parity symbol. -/
inductive DataRule where
  | fixed (d : Drive) | symbol | parity
  deriving DecidableEq, Repr

/-- What a per-state table says of `hold`: anything, 0, or from 1 to the value of a register. -/
inductive HoldRule where
  | any | zero | upTo (r : CfgReg)
  deriving DecidableEq, Repr

/-- A row of a per-state table: the drive of CLOCK where the table fixes it, DATA, the edge mode, the register that
bounds the countdown where the state waits for the timer, the range of `bitcnt`, and `hold`. -/
structure Row where
  clk   : Option Drive
  data  : DataRule
  mode  : EdgeMode
  timer : Option CfgReg
  bitLo : Nat
  bitHi : Nat
  hold  : HoldRule
  deriving DecidableEq, Repr

/-- The table of the PS/2 host (R130; `hold` by R16). -/
def rowP2h : St → Option Row
  | .idle => some ⟨some .rel, .fixed .rel, .fall, none, 0, 0, .zero⟩
  | .getBit => some ⟨some .rel, .fixed .rel, .fall, some .ps2hBitTimeoutUs, 0, 7, .zero⟩
  | .getParity => some ⟨some .rel, .fixed .rel, .fall, some .ps2hBitTimeoutUs, 8, 8, .zero⟩
  | .waitStop => some ⟨some .rel, .fixed .rel, .fall, some .ps2hBitTimeoutUs, 8, 8, .zero⟩
  | .getAck => some ⟨some .rel, .fixed .low, .off, some .ps2hAckUs, 0, 0, .zero⟩
  | .prepStart => some ⟨some .low, .fixed .rel, .off, some .ps2hInhibitUs, 0, 0, .zero⟩
  | .sendStart => some ⟨some .rel, .fixed .low, .fall, none, 0, 0, .zero⟩
  | .sendBit => some ⟨some .rel, .symbol, .fall, some .ps2hBitTimeoutUs, 1, 8, .zero⟩
  | .sendParity => some ⟨some .rel, .parity, .fall, some .ps2hBitTimeoutUs, 8, 8, .zero⟩
  | .sendStop => some ⟨some .rel, .fixed .rel, .fall, some .ps2hBitTimeoutUs, 8, 8, .zero⟩
  | .hostInhibit | .prepBit | .prepParity | .prepStop | .holdoff | .waitStart | .getStart | .waitBit | .waitAck
  | .reset => none


/-- The table of the PS/2 device (R164; `hold` by R153, R154, R162). CLOCK in `HOLDOFF` depends on the way in, and is
said of the step: see `Obligations.TablesAcrossSteps` (notes/assumptions/16.md). -/
def rowP2d : St → Option Row
  | .idle => some ⟨some .rel, .fixed .rel, .fall, none, 0, 0, .any⟩
  | .hostInhibit => some ⟨some .rel, .fixed .rel, .rise, none, 0, 0, .any⟩
  | .prepStart => some ⟨some .rel, .fixed .low, .off, some .ps2HalfCycleUs, 0, 0, .any⟩
  | .sendStart => some ⟨some .rel, .fixed .low, .off, some .ps2HalfCycleUs, 0, 0, .any⟩
  | .prepBit => some ⟨some .low, .symbol, .off, some .ps2HalfCycleUs, 0, 7, .any⟩
  | .sendBit => some ⟨some .rel, .symbol, .off, some .ps2HalfCycleUs, 1, 8, .any⟩
  | .prepParity => some ⟨some .low, .symbol, .off, some .ps2HalfCycleUs, 8, 8, .any⟩
  | .sendParity => some ⟨some .rel, .parity, .off, some .ps2HalfCycleUs, 8, 8, .any⟩
  | .prepStop => some ⟨some .low, .parity, .off, some .ps2HalfCycleUs, 8, 8, .any⟩
  | .sendStop => some ⟨some .rel, .fixed .rel, .off, some .ps2HalfCycleUs, 8, 8, .any⟩
  | .holdoff => some ⟨none, .fixed .rel, .off, some .ps2HalfCycleUs, 0, 0, .upTo .ps2HoldoffTicks⟩
  | .waitStart => some ⟨some .rel, .fixed .rel, .off, some .ps2HalfCycleUs, 0, 0, .any⟩
  | .getStart => some ⟨some .low, .fixed .rel, .off, some .ps2HalfCycleUs, 0, 0, .any⟩
  | .waitBit => some ⟨some .rel, .fixed .rel, .off, some .ps2HalfCycleUs, 0, 7, .any⟩
  | .getBit => some ⟨some .low, .fixed .rel, .off, some .ps2HalfCycleUs, 1, 8, .any⟩
  | .getParity => some ⟨some .rel, .fixed .rel, .off, some .ps2HalfCycleUs, 8, 8, .any⟩
  | .waitStop => some ⟨some .low, .fixed .rel, .off, some .ps2HalfCycleUs, 8, 8, .any⟩
  | .waitAck => some ⟨some .rel, .fixed .low, .off, some .ps2HalfCycleUs, 8, 8, .any⟩
  | .getAck => some ⟨some .low, .fixed .low, .off, some .ps2HalfCycleUs, 8, 8, .any⟩
  | .reset => none


/-- The table of the XT host (R187). -/
def rowXth : St → Option Row
  | .idle => some ⟨some .rel, .fixed .rel, .fall, none, 0, 0, .zero⟩
  | .getBit => some ⟨some .rel, .fixed .rel, .fall, some .xthBitTimeoutUs, 1, 7, .zero⟩
  | .reset => some ⟨some .low, .fixed .rel, .off, some .xtHalfCycleUs, 0, 0, .upTo .xthResetTicks⟩
  | .hostInhibit | .prepStart | .sendStart | .prepBit | .sendBit | .prepParity | .sendParity | .prepStop | .sendStop
  | .holdoff | .waitStart | .getStart | .waitBit | .getParity | .waitStop | .waitAck | .getAck => none


/-- The table of the XT device (R201). -/
def rowXtd : St → Option Row
  | .idle => some ⟨some .rel, .fixed .rel, .fall, none, 0, 0, .any⟩
  | .hostInhibit => some ⟨some .rel, .fixed .rel, .off, some .xtHalfCycleUs, 0, 0, .any⟩
  | .sendStart => some ⟨some .rel, .fixed .low, .off, some .xtStartUs, 0, 0, .any⟩
  | .sendBit => some ⟨some .rel, .symbol, .off, some .xtHalfCycleUs, 1, 8, .any⟩
  | .prepBit => some ⟨some .low, .symbol, .off, some .xtHalfCycleUs, 1, 8, .any⟩
  | .holdoff => some ⟨some .rel, .fixed .rel, .off, some .xtHalfCycleUs, 0, 0, .upTo .xtHoldoffTicks⟩
  | .prepStart | .prepParity | .sendParity | .prepStop | .sendStop | .waitStart | .getStart | .waitBit | .getBit
  | .getParity | .waitStop | .waitAck | .getAck | .reset => none


/-- The row of an engine's state; none for a state the engine does not use (R68). -/
def rowOf : Engine → St → Option Row
  | .p2h, c => rowP2h c
  | .p2d, c => rowP2d c
  | .xth, c => rowXth c
  | .xtd, c => rowXtd c

/-- `hold` is as the table says, without its upper bound. -/
abbrev HoldRule.holds (r : HoldRule) (hold : Byte) : Prop :=
  (r = .zero → hold = 0) ∧ (∀ c, r = .upTo c → hold ≠ 0)

/-- The drive a symbol puts on a line (R86). -/
def driveOf (b : Bool) : Drive := if b then .rel else .low

/-- The first `n` data symbols of a byte (R46). -/
def symbolsPut (v : Byte) (n : Nat) : List Bool := (dataSymbols v).take n

/-- `v` is the byte of the frame that is being sent: `bitcnt` of its symbols have left `acc` (R46, R63). -/
def Sends (v : Byte) (w : InstState) : Prop :=
  w.acc = v >>> w.bitcnt.toNat ∧ w.ones.toNat = (symbolsPut v w.bitcnt.toNat).count true

/-- DATA for the last symbol put: before the first data symbol that is the start symbol, 0 (R60). -/
def lastDrive (v : Byte) (n : Nat) : Drive := driveOf ((symbolsPut v n).getLast?.getD false)

/-- DATA is as the table says, for the byte that is being sent. -/
def DataRule.holds (r : DataRule) (data : Drive) (w : InstState) : Prop :=
  match r with
  | .fixed d => data = d
  | .symbol => ∃ v, Sends v w ∧ data = lastDrive v w.bitcnt.toNat
  | .parity => ∃ v, Sends v w ∧ data = driveOf (oddParity v)

/-- The other instance. -/
def otherInst : Inst → Inst
  | .P => .X
  | .X => .P

/-- An instance stands in the row: R28 (d). The timer clause is that of the tables in one state: an untimed state owns
no countdown, and a timed state owns the timer unless the other instance, having a role, may have taken it (R95). That
it is then the other instance that took it is said of the step (`KeepsTimer`), and so are the upper bounds
(`Bounded`). -/
abbrev Row.holds (r : Row) (i : Inst) (s : State) : Prop :=
  (∀ d, r.clk = some d → s.own.get (clkOf i) = d) ∧
  r.data.holds (s.own.get (dataOf i)) (s.inst i) ∧
  (s.inst i).edgeMode = r.mode ∧
  (r.timer = none → s.tmr.owner ≠ ownerOf i) ∧
  (r.timer ≠ none → s.tmr.owner = ownerOf i ∨ (s.inst (otherInst i)).role ≠ .none) ∧
  r.bitLo ≤ (s.inst i).bitcnt.toNat ∧ (s.inst i).bitcnt.toNat ≤ r.bitHi ∧
  r.hold.holds (s.inst i).hold

/-- The row an instance stands in. -/
def rowAt (i : Inst) (s : State) : Option Row :=
  match engineOf i (s.inst i).role with
  | some e => rowOf e (s.inst i).st
  | none => none

/-- The timer is not taken from the instance: in a state that waits for the timer it owns it (R28 (d), R95). -/
def KeepsTimer (i : Inst) (s : State) : Prop :=
  ∀ r, rowAt i s = some r → r.timer ≠ none → s.tmr.owner = ownerOf i

/-- The upper bounds of the tables: a countdown of the instance has at most the value of its register left, and `hold`
is at most that of its register. -/
def Bounded (i : Inst) (s : State) : Prop :=
  ∀ r, rowAt i s = some r →
    (∀ c, r.timer = some c → s.tmr.owner = ownerOf i → s.tmr.cnt ≤ s.cfg.get c) ∧
    (∀ c, r.hold = .upTo c → (s.inst i).hold ≤ s.cfg.get c)

/-- R28 (c) of the lines: an instance without a role holds neither of its lines low. The foreground may make it hold
one, by R87 and R272 (notes/assumptions/10.md); nothing else can: see `Obligations.TablesAcrossSteps`. -/
def ReleasedUnclaimed (i : Inst) (s : State) : Prop :=
  (s.inst i).role = .none → s.own.get (clkOf i) = .rel ∧ s.own.get (dataOf i) = .rel

/-- What R28 says of one instance: (a) the counters; (c) an instance without a role owns no timer, and its state register
is still at its reset value (R12, R217), the rest of (c) being said of the step (notes/assumptions/10.md); (d) one with a role stands in the row of its state, and no edge is pending while
its detector is `OFF`. -/
def InstInv (i : Inst) (s : State) : Prop :=
  (s.inst i).bitcnt.toNat ≤ 8 ∧ (s.inst i).ones.toNat ≤ (s.inst i).bitcnt.toNat ∧
  (match engineOf i (s.inst i).role with
   | none => s.tmr.owner ≠ ownerOf i ∧ (s.inst i).st = .idle
   | some e =>
     (match rowOf e (s.inst i).st with
      | none => False
      | some r => r.holds i s) ∧
     ((s.inst i).edgePend = true → (s.inst i).edgeMode ≠ .off))

/-- The timer is owned exactly when it counts or has expired (R94), never both, and it does not count from 0. -/
def TimerInv (t : Timer) : Prop :=
  (t.owner ≠ .none ↔ t.run = true ∨ t.pend = true) ∧ ¬(t.run = true ∧ t.pend = true) ∧ (t.run = true → t.cnt ≠ 0)

/-- No reserved value is held (R29): no timing register is 0 and bits 7:1 of `OPTIONS` are 0. -/
def CfgInv (c : CfgBank) : Prop :=
  c.ps2HalfCycleUs ≠ 0 ∧ c.ps2HoldoffTicks ≠ 0 ∧ c.ps2hInhibitUs ≠ 0 ∧ c.ps2hBitTimeoutUs ≠ 0 ∧ c.ps2hAckUs ≠ 0 ∧
  c.xtStartUs ≠ 0 ∧ c.xtHalfCycleUs ≠ 0 ∧ c.xtHoldoffTicks ≠ 0 ∧ c.xtResetTicks ≠ 0 ∧ c.xthBitTimeoutUs ≠ 0 ∧
  c.xthResetTicks ≠ 0 ∧ c.options &&& 0xFE = 0

/-- `QUEUE_SLOTS` is a power of two, at least 2 (R7). -/
def SlotsInv (n : Nat) : Prop := ∃ k, n = 2 ^ (k + 1)

/-- Every queue is well formed (R28 (b), R40). -/
def QueuesWf (s : State) : Prop :=
  s.p.txq.wf s.slots ∧ s.p.rxq.wf s.slots ∧ s.x.txq.wf s.slots ∧ s.x.rxq.wf s.slots

/-- At most one notification is deliverable (R28 (e)). -/
def AtMostOne (s : State) : Prop :=
  ¬(edgeDeliverable .P s = true ∧ edgeDeliverable .X s = true) ∧
  ¬(edgeDeliverable .P s = true ∧ tmrDeliverable s = true) ∧
  ¬(edgeDeliverable .X s = true ∧ tmrDeliverable s = true)

/-- The invariant of the block (R28). -/
def BlockInv (s : State) : Prop :=
  InstInv .P s ∧ InstInv .X s ∧ TimerInv s.tmr ∧ CfgInv s.cfg ∧ SlotsInv s.slots ∧ QueuesWf s ∧
  AtMostOne s

/-- A word the foreground or the environment can put in `script`: any command word, an ENV event on one of the seven
lines, a frame (R67, R60 to R62). -/
def inputOk (c : Code) : Bool :=
  match c with
  | .command _ => true
  | .key _ => false
  | .event _ | .frame _ _ _ =>
    match decode c with
    | .ok .envTick => true
    | .ok (.envLow l) => legalLine l.toNat
    | .ok (.envRel l) => legalLine l.toNat
    | .ok (.framePs2D2h _ _) => true
    | .ok (.framePs2H2d _ _) => true
    | .ok (.frameXtD2h _ _) => true
    | _ => false

/-- Everything in `script` can be issued. -/
def ScriptOk (s : State) : Prop := s.script.all inputOk = true

/-- The row for an instance of quiescence (R285): no role, or `IDLE` with nothing to send. -/
def instQuiescent (v : InstState) : Prop := v.role = .none ∨ (v.st = .idle ∧ v.txq.empty = true)

/-- The block is quiescent (R285). -/
def quiescent (s : State) : Prop :=
  instQuiescent s.p ∧ instQuiescent s.x ∧ deliverable s = none ∧
  ¬(s.tmr.run = true ∧ (ownerInst s.tmr.owner).isSome = true)

/-- The relations between timing registers that R280 asks the foreground to keep; the one on the acknowledge pulse only
where the device waits for it (`PS2D_WAIT_SEND_ACK` = 1). -/
def Interoperable (c : CfgBank) : Prop :=
  2 * c.ps2HalfCycleUs.toNat < c.ps2hBitTimeoutUs.toNat ∧
  2 * c.xtHalfCycleUs.toNat < c.xthBitTimeoutUs.toNat ∧
  (c.options.getLsbD 0 = true → c.ps2HalfCycleUs.toNat < c.ps2hAckUs.toNat) ∧
  c.xtResetTicks.toNat * c.xtHalfCycleUs.toNat < c.xthResetTicks.toNat * c.xtHalfCycleUs.toNat

/-- The bytes a queue of `n` slots holds, oldest first (R41, R47): `count` of them, from `tail` on. -/
def Queue.toList (n : Nat) (q : Queue) : List Byte :=
  (List.range (q.count n)).map fun k => Memory.read q.buf ((q.tail + k) % n)

/-- An illegal command word, as R70 (a) lists them from the columns of R66: unit, operation and operand of the word. A
zero delay and a zero timing value are not in that list; R101 and R219 refuse them. -/
def illegalCommand (w : Word16) : Bool :=
  let unit := w.toNat / 4096
  let op := w.toNat / 256 % 16
  let operand := w.toNat % 256
  let plain (last : Nat) : Bool := 2 ≤ op && op ≤ last && operand == 0
  let queued : Bool := op == 0 && (operand == 1 || operand == 2) || op == 1
  match unit with
  | 0 => !(op ≤ 2 && operand ≤ 6)
  | 1 => !(op == 0 || (op == 1 || op == 2) && operand == 0)
  | 2 => !(op == 0 && operand / 8 == 0 && operand / 2 != 3 || op == 1 && operand / 2 == 0)
  | 3 => !(queued || plain 6)
  | 4 => !(queued || plain 7)
  | 5 => !(op ≤ 12)
  | 6 => !(op ≤ 12 && operand == 0)
  | _ => true

/-- An instance after INIT or RESET: queues empty, frame registers and `hold` zero, no edge pending (R271, R211). -/
def freshInst (r : Role) (c : St) (m : EdgeMode) (v : InstState) : InstState where
  role     := r
  st       := c
  acc      := 0
  bitcnt   := 0
  ones     := 0
  hold     := 0
  txq      := { v.txq with head := 0, tail := 0 }
  rxq      := { v.rxq with head := 0, tail := 0 }
  edgeMode := m
  edgePend := false

/-- The timer after `tmr_off()` of an agent (R92). -/
def timerWithout (c : Owner) (t : Timer) : Timer :=
  if t.owner = c then { t with run := false, pend := false, owner := .none } else t

/-- The block after INIT or RESET of an instance in a role: the cases of R271, with the levels the far end gives the
instance's lines once the block has released them. -/
def freshState (i : Inst) (r : Role) (s : State) : State :=
  match i, r with
  | .P, .host =>
    { s with
      p := freshInst .host .idle .fall s.p, ackSeen := true, tmr := timerWithout .P s.tmr,
      own := { s.own with ps2Clk := .rel, ps2Data := .rel } }
  | .P, .device =>
    let t := { s with ackSeen := true, own := { s.own with ps2Clk := .rel, ps2Data := .rel } }
    match s.ext.ps2Clk, s.ext.ps2Data with
    | .low, _ => { t with p := freshInst .device .hostInhibit .rise s.p, tmr := timerWithout .P s.tmr }
    | .rel, .low =>
      { t with
        p := freshInst .device .waitStart .off s.p,
        tmr := { run := true, cnt := s.cfg.ps2HalfCycleUs, pend := false, owner := .P } }
    | .rel, .rel => { t with p := freshInst .device .idle .fall s.p, tmr := timerWithout .P s.tmr }
  | .X, .host =>
    { s with
      x := freshInst .host .idle .fall s.x, tmr := timerWithout .X s.tmr,
      own := { s.own with xtClk := .rel, xtData := .rel } }
  | .X, .device =>
    let t := { s with own := { s.own with xtClk := .rel, xtData := .rel } }
    match s.ext.xtClk with
    | .low =>
      { t with
        x := freshInst .device .hostInhibit .off s.x,
        tmr := { run := true, cnt := s.cfg.xtHalfCycleUs, pend := false, owner := .X } }
    | .rel => { t with x := freshInst .device .idle .fall s.x, tmr := timerWithout .X s.tmr }
  | _, .none => s

/-- Run transitions one after the other; before each the far end puts a symbol on the line. -/
def runReceiving (l : Line) : List (Instr × Bool) → State → Result
  | [], s => .next s
  | (i, b) :: rest, s =>
    match exec i { s with ext := s.ext.set l (driveOf b) } with
    | .next t => runReceiving l rest t
    | .fault f => .fault f
    | .refused r => .refused r

/-- Run operations one after the other, as long as each gives a next state. -/
def runOps : List Instr → State → Result
  | [], s => .next s
  | j :: rest, s =>
    match exec j s with
    | .next t => runOps rest t
    | .fault f => .fault f
    | .refused r => .refused r

/-- Run transitions one after the other, keeping the levels of the instance's CLOCK and DATA after each. -/
def runShowing (i : Inst) : List Instr → State → Result × List (Bool × Bool)
  | [], s => (.next s, [])
  | j :: rest, s =>
    match exec j s with
    | .next t =>
      let (o, shown) := runShowing i rest t
      (o, (level (clkOf i) t, level (dataOf i) t) :: shown)
    | .fault f => (.fault f, [])
    | .refused r => (.refused r, [])

end Sys2Proof.Machine
end

