-- ==== Sys2Proof/Certificates/Slice0/Obligations.lean ====
section
/-!
DEFINITION. The statements for the provers. Each docstring names the rules of spec/ its statement formalises. Where a
statement gives the whole next state as `s` with fields replaced, that equality is the result, the completion and the
frame at once: every field it does not name, every queue slot among them, is as before. The last effect of a step, R99,
is written `detectEdges s` where it can set a pending bit, and has its own statement, `EdgeDetection`.
-/

open Sys2Proof Sys2Proof.Machine

/-! ## Encodings -/

/-- Words written out from R66, R67, R69 and R60 to R62 decode to what they stand for, and the key of a triple with a
rule is `engine[7:6] || st[5:1] || event[0]` (R69). -/
def Obligations.SpecWordsDecode : Prop :=
  decode (.command 0x0006) = .ok (.lineAssert 6) ∧
  decode (.command 0x1064) = .ok (.tmrArm 100) ∧
  decode (.command 0x2003) = .ok (.edgeSet .X 1) ∧
  decode (.command 0x31ED) = .ok (.pPut 0xED) ∧
  decode (.command 0x4700) = .ok .xHreset ∧
  decode (.command 0x5714) = .ok (.cfgWr 7 20) ∧
  decode (.event 0xF201) = .ok (.envRel 1) ∧
  decode (.event 0xF301) = .ok (.irqEdge .X) ∧
  decode (.key 0x4B) = .ok .p2dSendBitTmr ∧
  decode (.frame .ps2D2h [false, false, false, true, true, true, false, false, false, false, true] 40)
    = .ok (.framePs2D2h 0x1C 40) ∧
  decode (.frame .xtD2h [false, true, true, true, true, false, false, false] 50) = .ok (.frameXtD2h 0x1E 50) ∧
  ∀ e c v j, transitionOf e c v = some j →
    encode j = .key (e.code ++ c.code ++ v.code) ∧ decode (.key (e.code ++ c.code ++ v.code)) = .ok j

/-- Decoding an encoded operation gives it back, every operand at every value, for all 78 constructors. -/
def Obligations.DecodeOfEncode : Prop :=
  ∀ i : Instr, decode (encode i) = .ok i

/-- Every word has at most one meaning: a word that decodes is the encoding of what it decodes to, in every code
space (R66, R67, R69, R60 to R62). -/
def Obligations.EncodeOfDecode : Prop :=
  ∀ (c : Code) (i : Instr), decode c = .ok i → encode i = c

/-- A word that R70 (a) calls illegal is refused, with no effect (R221). That it is the word at the head of `script`, and
that the step takes it off there, is the model's own (notes/assumptions/5.md). -/
def Obligations.IllegalCommandsRefused : Prop :=
  ∀ (w : Word16) (rest : List Code) (s : State),
    deliverable s = none → s.script = .command w :: rest → illegalCommand w = true →
      step s = .next { s with script := rest, ret := 0, refused := true }

/-! ## A step -/

/-- With nothing deliverable, a step runs the operation the head of `script` decodes to, on the state without that
head; a word the far end has no action for, a dispatch key, which nobody issues (R251), and an event on a line id above
6, which no line has (R80), are no step. That the choice of the foreground and the environment stands in `script` is the
model's own (notes/assumptions/5.md), and so is the form in which such words are turned away (notes/assumptions/8.md). -/
def Obligations.StepRunsDecoded : Prop :=
  ∀ (c : Code) (rest : List Code) (s : State), deliverable s = none → s.script = c :: rest →
    (∀ i, (∀ k, c ≠ .key k) → decode c = .ok i → step s = exec i { s with script := rest }) ∧
    (∀ k, c = .key k → step s = .refused .notEnabled) ∧
    (∀ e, (∀ k, c ≠ .key k) → (∀ w, c ≠ .command w) → decode c = .error e → step s = .refused (.noSuchEvent e)) ∧
    (∀ l : BitVec 4, 6 < l.toNat → decode c = .ok (.envLow l) ∨ decode c = .ok (.envRel l) →
      step s = .refused .noSuchLine)

/-- R248, R249: a deliverable notification is the next step, in the order edge of `P`, edge of `X`, timer; otherwise,
with `script` empty, time passes (notes/assumptions/5.md). A notification is deliverable as R247 says. -/
def Obligations.StepDispatchesByPriority : Prop :=
  ∀ s : State,
    let edgeP := s.p.edgePend = true ∧ s.p.role ≠ .none
    let edgeX := s.x.edgePend = true ∧ s.x.role ≠ .none
    let timer := s.tmr.pend = true ∧ (s.tmr.owner = .P ∨ s.tmr.owner = .X)
    (edgeP → step s = exec (.irqEdge .P) s) ∧
    (¬edgeP → edgeX → step s = exec (.irqEdge .X) s) ∧
    (¬edgeP → ¬edgeX → timer → step s = exec .irqTmr s) ∧
    (¬edgeP → ¬edgeX → ¬timer → s.script = [] → step s = exec .envTick s)

/-- A dispatch takes the notification, runs the transition of (engine, `st`, event) and ends with R99; a key without a
rule is a fault (R257, R258, R259). Every transition so selected completes. The last two clauses, that a notification
which is not the one to be dispatched is refused as `notEnabled`, are the model's own (notes/assumptions/7.md). -/
def Obligations.NotificationsRunTheirTransition : Prop :=
  ∀ (i : Inst) (s : State),
    (deliverable s = some (.edge i) → ∀ e, engineOf i (s.inst i).role = some e →
      (∀ j, transitionOf e (s.inst i).st .edge = some j →
        ∃ u, exec j (s.modInst i fun v => { v with edgePend := false }) = .next u ∧
          exec (.irqEdge i) s = .next (detectEdges s u)) ∧
      (transitionOf e (s.inst i).st .edge = none →
        exec (.irqEdge i) s = .fault (.spuriousDispatch i (s.inst i).st .edge))) ∧
    (deliverable s = some .timer → s.tmr.owner = ownerOf i → ∀ e, engineOf i (s.inst i).role = some e →
      (∀ j, transitionOf e (s.inst i).st .tmr = some j →
        ∃ u, exec j { s with tmr := { s.tmr with pend := false, owner := .none } } = .next u ∧
          exec .irqTmr s = .next (detectEdges s u)) ∧
      (transitionOf e (s.inst i).st .tmr = none →
        exec .irqTmr s = .fault (.spuriousDispatch i (s.inst i).st .tmr))) ∧
    (deliverable s ≠ some (.edge i) → exec (.irqEdge i) s = .refused .notEnabled) ∧
    (deliverable s ≠ some .timer → exec .irqTmr s = .refused .notEnabled)

/-- R6: while a notification is deliverable no command, no far-end change, no tick and no frame is a step. -/
def Obligations.OnlyDispatchWhileDeliverable : Prop :=
  ∀ (i : Instr) (s : State), deliverable s ≠ none → inputOk (encode i) = true → exec i s = .refused .notEnabled

/-- R12: the transition of (engine, `st`, event) completes exactly when the engine's instance has the engine's role
and stands in `st`; otherwise it is no step. -/
def Obligations.TransitionCompletesInItsState : Prop :=
  ∀ (e : Engine) (c : St) (v : Ev) (j : Instr), transitionOf e c v = some j → ∀ s : State,
    ((s.inst (engineInst e).1).role = (engineInst e).2 ∧ (s.inst (engineInst e).1).st = c →
      ∃ t, exec j s = .next t) ∧
    (¬((s.inst (engineInst e).1).role = (engineInst e).2 ∧ (s.inst (engineInst e).1).st = c) →
      exec j s = .refused .notEnabled)

/-- R99: `edge_pend` of an instance is set when its CLOCK level and its mode, after all other effects, show the
selected edge against the level before the step; nothing else changes. -/
def Obligations.EdgeDetection : Prop :=
  ∀ before s : State,
    let seen (i : Inst) : Bool :=
      level (clkOf i) before && !level (clkOf i) s && (s.inst i).edgeMode == .fall ||
        !level (clkOf i) before && level (clkOf i) s && (s.inst i).edgeMode == .rise
    detectEdges before s =
      { s with
        p := { s.p with edgePend := s.p.edgePend || seen .P },
        x := { s.x with edgePend := s.x.edgePend || seen .X } }

/-! ## Lines, timer, edge detectors -/

/-- R84, R87, R88, R89: `LINE.ASSERT`, `LINE.RELEASE` and `LINE.READ`. -/
def Obligations.LineCommands : Prop :=
  ∀ (l : Byte) (s : State), deliverable s = none →
    (∀ n, lineOfId l.toNat = some n →
      ((∀ i, instOfLine n = some i → (s.inst i).role = .none) →
        exec (.lineAssert l) s
          = .next (detectEdges s { s with own := s.own.set n .low, ret := 0, refused := false }) ∧
        exec (.lineRelease l) s
          = .next (detectEdges s { s with own := s.own.set n .rel, ret := 0, refused := false })) ∧
      (∀ i, instOfLine n = some i → (s.inst i).role ≠ .none →
        exec (.lineAssert l) s = .next { s with ret := 0, refused := true } ∧
        exec (.lineRelease l) s = .next { s with ret := 0, refused := true }) ∧
      exec (.lineRead l) s
        = .next { s with
            ret := if s.own.get n = .rel ∧ s.ext.get n = .rel then 0x01 else 0x00, refused := false }) ∧
    (6 < l.toNat →
      exec (.lineAssert l) s = .next { s with ret := 0, refused := true } ∧
      exec (.lineRelease l) s = .next { s with ret := 0, refused := true } ∧
      exec (.lineRead l) s = .next { s with ret := 0, refused := true })

/-- R101, R102, R103: `TMR.ARM`, `TMR.DISABLE` and `TMR.STATUS`. -/
def Obligations.TimerCommands : Prop :=
  ∀ (d : Byte) (s : State), deliverable s = none →
    let owned := s.tmr.owner = .P ∨ s.tmr.owner = .X
    (d = 0 ∨ owned → exec (.tmrArm d) s = .next { s with ret := 0, refused := true }) ∧
    (d ≠ 0 → ¬owned →
      exec (.tmrArm d) s
        = .next { s with tmr := { run := true, cnt := d, pend := false, owner := .FG }, ret := 0, refused := false }) ∧
    (owned → exec .tmrDisable s = .next { s with ret := 0, refused := true }) ∧
    (¬owned →
      exec .tmrDisable s
        = .next { s with
            tmr := { s.tmr with run := false, pend := false, owner := .none }, ret := 0, refused := false }) ∧
    exec .tmrStatus s
      = .next { s with
          ret := 4 * s.tmr.owner.code.setWidth 8 + (if s.tmr.pend then 2 else 0) + (if s.tmr.run then 1 else 0),
          refused := false }

/-- R104, R105: `EDGE.SET` and `EDGE.STATUS`. -/
def Obligations.EdgeCommands : Prop :=
  ∀ (i : Inst) (m : BitVec 2) (s : State), deliverable s = none →
    (m = 3 ∨ (s.inst i).role ≠ .none → exec (.edgeSet i m) s = .next { s with ret := 0, refused := true }) ∧
    (∀ n : EdgeMode, n.code = m → (s.inst i).role = .none →
      exec (.edgeSet i m) s
        = .next { s.modInst i (fun v => { v with edgeMode := n, edgePend := false }) with ret := 0, refused := false }) ∧
    exec (.edgeStatus i) s
      = .next { s with
          ret := 2 * (s.inst i).edgeMode.code.setWidth 8 + (if (s.inst i).edgePend then 1 else 0), refused := false }

/-- R93: `ENV.TICK`. -/
def Obligations.TickCountsDown : Prop :=
  ∀ s : State, deliverable s = none →
    exec .envTick s
      = .next { s with
          now := s.now + 1,
          tmr :=
            if s.tmr.run then
              if s.tmr.cnt - 1 = 0 then { s.tmr with run := false, cnt := 0, pend := true }
              else { s.tmr with cnt := s.tmr.cnt - 1 }
            else s.tmr }

/-- R91, R94: a countdown armed with `d` runs with `d - k` left after `k` ticks and expires at the `d`-th. -/
def Obligations.ExpiryAtTheDelay : Prop :=
  ∀ (c : Owner) (d : Byte) (s : State) (k : Nat), d ≠ 0 →
    (k < d.toNat →
      (tick^[k] (arm c d s)).tmr = { run := true, cnt := d - BitVec.ofNat 8 k, pend := false, owner := c }) ∧
    (k = d.toNat → (tick^[k] (arm c d s)).tmr = { run := false, cnt := 0, pend := true, owner := c }) ∧
    (tick^[k] (arm c d s)).now = s.now + k

/-- R106, R107: `ENV.LOW` and `ENV.REL` of a line. -/
def Obligations.FarEndDrivesLines : Prop :=
  ∀ (l : BitVec 4) (n : Line) (s : State), deliverable s = none → lineOfId l.toNat = some n →
    exec (.envLow l) s
      = .next { s with
          ext := s.ext.set n .low,
          p := { s.p with
            edgePend := s.p.edgePend || decide (n = .ps2Clk ∧ s.p.edgeMode = .fall ∧ level .ps2Clk s = true) },
          x := { s.x with
            edgePend := s.x.edgePend || decide (n = .xtClk ∧ s.x.edgeMode = .fall ∧ level .xtClk s = true) } } ∧
    exec (.envRel l) s
      = .next { s with
          ext := s.ext.set n .rel,
          p := { s.p with
            edgePend := s.p.edgePend ||
              decide (n = .ps2Clk ∧ s.p.edgeMode = .rise ∧ s.own.ps2Clk = .rel ∧ s.ext.ps2Clk = .low) },
          x := { s.x with
            edgePend := s.x.edgePend ||
              decide (n = .xtClk ∧ s.x.edgeMode = .rise ∧ s.own.xtClk = .rel ∧ s.ext.xtClk = .low) } }

/-! ## Instance, queue and configuration commands -/

/-- R211, R216, R271: `Q.INIT` and `Q.RESET`. -/
def Obligations.InitAndReset : Prop :=
  ∀ (rr : Byte) (s : State), deliverable s = none →
    (∀ r, (rr = 1 ∧ r = .host) ∨ (rr = 2 ∧ r = .device) →
      (s.p.role = .none → exec (.pInit rr) s = .next { freshState .P r s with ret := 0, refused := false }) ∧
      (s.x.role = .none → exec (.xInit rr) s = .next { freshState .X r s with ret := 0, refused := false })) ∧
    ((rr ≠ 1 ∧ rr ≠ 2) ∨ s.p.role ≠ .none → exec (.pInit rr) s = .next { s with ret := 0, refused := true }) ∧
    ((rr ≠ 1 ∧ rr ≠ 2) ∨ s.x.role ≠ .none → exec (.xInit rr) s = .next { s with ret := 0, refused := true }) ∧
    (s.p.role = .none → exec .pReset s = .next { s with ret := 0, refused := true }) ∧
    (s.x.role = .none → exec .xReset s = .next { s with ret := 0, refused := true }) ∧
    (s.p.role ≠ .none → exec .pReset s = .next { freshState .P s.p.role s with ret := 0, refused := false }) ∧
    (s.x.role ≠ .none → exec .xReset s = .next { freshState .X s.x.role s with ret := 0, refused := false })

/-- R212: `Q.PUT` on a queue that is not full: the byte is queued, and an idle engine runs its idle-entry function. -/
def Obligations.PutQueuesAndStarts : Prop :=
  ∀ (b : Byte) (s : State), deliverable s = none →
    let sp := { s with p := { s.p with txq := s.p.txq.put s.slots b } }
    let sx := { s with x := { s.x with txq := s.x.txq.put s.slots b } }
    let ok (t : State) : State := { t with ret := 0, refused := false }
    (s.p.role = .none → exec (.pPut b) s = .next { s with ret := 0, refused := true }) ∧
    (s.x.role ≠ .device → exec (.xPut b) s = .next { s with ret := 0, refused := true }) ∧
    (s.p.role ≠ .none → s.p.txq.full s.slots = false → s.p.st ≠ .idle → exec (.pPut b) s = .next (ok sp)) ∧
    (s.x.role = .device → s.x.txq.full s.slots = false → s.x.st ≠ .idle → exec (.xPut b) s = .next (ok sx)) ∧
    (s.p.role = .host → s.p.txq.full s.slots = false → s.p.st = .idle →
      exec (.pPut b) s = .next (detectEdges s (ok (p2hCheckForData sp)))) ∧
    (s.p.role = .device → s.p.txq.full s.slots = false → s.p.st = .idle →
      exec (.pPut b) s = .next (detectEdges s (ok (p2dCheckBus sp)))) ∧
    (s.x.role = .device → s.x.txq.full s.slots = false → s.x.st = .idle →
      exec (.xPut b) s = .next (detectEdges s (ok (xtdCheckBus sx))))

/-- R213: `Q.GET` on a queue that is not empty returns and consumes the byte at `tail`. -/
def Obligations.GetTakesTheOldest : Prop :=
  ∀ s : State, deliverable s = none →
    (s.p.role = .none → exec .pGet s = .next { s with ret := 0, refused := true }) ∧
    (s.x.role ≠ .host → exec .xGet s = .next { s with ret := 0, refused := true }) ∧
    (s.p.role ≠ .none → s.p.rxq.empty = false →
      exec .pGet s
        = .next { s with
            p := { s.p with rxq := { s.p.rxq with tail := (s.p.rxq.tail + 1) % s.slots } },
            ret := Memory.read s.p.rxq.buf s.p.rxq.tail, refused := false }) ∧
    (s.x.role = .host → s.x.rxq.empty = false →
      exec .xGet s
        = .next { s with
            x := { s.x with rxq := { s.x.rxq with tail := (s.x.rxq.tail + 1) % s.slots } },
            ret := Memory.read s.x.rxq.buf s.x.rxq.tail, refused := false })

/-- The model's choice among those R210 allows (notes/assumptions/6.md): a blocked `PUT` and a blocked `GET` answer
`refused` = 1 and change nothing else. -/
def Obligations.BlockedCommandsAnswerRefused : Prop :=
  ∀ (b : Byte) (s : State), deliverable s = none →
    (s.p.txq.full s.slots = true → exec (.pPut b) s = .next { s with ret := 0, refused := true }) ∧
    (s.x.txq.full s.slots = true → exec (.xPut b) s = .next { s with ret := 0, refused := true }) ∧
    (s.p.rxq.empty = true → exec .pGet s = .next { s with ret := 0, refused := true }) ∧
    (s.x.rxq.empty = true → exec .xGet s = .next { s with ret := 0, refused := true })

/-- R214, R215, R217: the counts are the number of bytes queued, which is below `QUEUE_SLOTS` and so, with at most 256
slots, fits the answer; and `Q.STATE` is the code of the state (R68), 0 for an instance without a role, whose state
register has not been written. -/
def Obligations.CountsAndState : Prop :=
  ∀ s : State, deliverable s = none →
    (0 < s.slots → s.slots ≤ 256 →
      (∀ q : Queue, (q.toList s.slots).length < s.slots) ∧
      exec .pRxcount s = .next { s with ret := BitVec.ofNat 8 (s.p.rxq.toList s.slots).length, refused := false } ∧
      exec .pTxcount s = .next { s with ret := BitVec.ofNat 8 (s.p.txq.toList s.slots).length, refused := false } ∧
      exec .xRxcount s = .next { s with ret := BitVec.ofNat 8 (s.x.rxq.toList s.slots).length, refused := false } ∧
      exec .xTxcount s = .next { s with ret := BitVec.ofNat 8 (s.x.txq.toList s.slots).length, refused := false }) ∧
    exec .pState s = .next { s with ret := BitVec.ofNat 8 s.p.st.code.toNat, refused := false } ∧
    exec .xState s = .next { s with ret := BitVec.ofNat 8 s.x.st.code.toNat, refused := false } ∧
    (InstInv .P s → s.p.role = .none → exec .pState s = .next { s with ret := 0x00, refused := false }) ∧
    (InstInv .X s → s.x.role = .none → exec .xState s = .next { s with ret := 0x00, refused := false })

/-- R218: `X.HRESET`. -/
def Obligations.HostResetPulseStarts : Prop :=
  ∀ s : State, deliverable s = none →
    (s.x.role = .host ∧ s.x.st = .idle →
      exec .xHreset s
        = .next { s with
            x := { s.x with edgeMode := .off, edgePend := false, hold := s.cfg.xthResetTicks, st := .reset },
            own := { s.own with xtClk := .low },
            tmr := { run := true, cnt := s.cfg.xtHalfCycleUs, pend := false, owner := .X },
            ret := 0, refused := false }) ∧
    (¬(s.x.role = .host ∧ s.x.st = .idle) → exec .xHreset s = .next { s with ret := 0, refused := true })

/-- R219, R220 with the indices of R29: `CFG.WR` and `CFG.RD`. -/
def Obligations.ConfigCommands : Prop :=
  ([0, 1, 2, 3, 4, 5, 6, 7, 8, 9, 10, 11, 12].map cfgOfIndex
    = [.ps2HalfCycleUs, .ps2HoldoffTicks, .ps2hInhibitUs, .ps2hBitTimeoutUs, .ps2hAckUs, .xtStartUs, .xtHalfCycleUs,
        .xtHoldoffTicks, .xtResetTicks, .xthBitTimeoutUs, .xthResetTicks, .xtBatCode, .options].map some) ∧
  ∀ (r : BitVec 4) (v : Byte) (s : State), deliverable s = none →
    (12 < r.toNat →
      exec (.cfgWr r v) s = .next { s with ret := 0, refused := true } ∧
      exec (.cfgRd r) s = .next { s with ret := 0, refused := true }) ∧
    (r.toNat ≤ 10 → v = 0 → exec (.cfgWr r v) s = .next { s with ret := 0, refused := true }) ∧
    (∀ n, cfgOfIndex r = some n → r.toNat ≤ 10 → v ≠ 0 →
      exec (.cfgWr r v) s = .next { s with cfg := s.cfg.set n v, ret := 0, refused := false }) ∧
    (r = 11 → exec (.cfgWr r v) s = .next { s with cfg := { s.cfg with xtBatCode := v }, ret := 0, refused := false }) ∧
    (r = 12 →
      exec (.cfgWr r v) s = .next { s with cfg := { s.cfg with options := v &&& 1 }, ret := 0, refused := false }) ∧
    (∀ n, cfgOfIndex r = some n → exec (.cfgRd r) s = .next { s with ret := s.cfg.get n, refused := false })

/-! ## Wire frames -/

/-- The three frame rows put R73's expansion of their frame in front of `script`, in event words. That a frame row
runs by being played is the model's choice, and so is the host-to-device expansion, which R73 does not write out
(notes/assumptions/12.md). -/
def Obligations.FramesArePlayed : Prop :=
  ∀ (v : Byte) (h : Nat) (s : State), deliverable s = none →
    let low (l : Word16) : Code := .event (0xF100 + l)
    let rel (l : Word16) : Code := .event (0xF200 + l)
    let put (l : Word16) (b : Bool) : Code := if b then rel l else low l
    let wait (n : Nat) : List Code := List.replicate n (.event 0xF000)
    let bit (k : Nat) : Bool := v.getLsbD k
    let parity : Bool := ([0, 1, 2, 3, 4, 5, 6, 7].filter bit).length % 2 == 0
    exec (.framePs2D2h v h) s
      = .next { s with
          script := low 1 :: wait (2 * h)
            ++ [bit 0, bit 1, bit 2, bit 3, bit 4, bit 5, bit 6, bit 7, parity, true].flatMap
                (fun b => low 0 :: wait h ++ put 1 b :: rel 0 :: wait h)
            ++ low 0 :: wait h ++ rel 0 :: s.script } ∧
    exec (.frameXtD2h v h) s
      = .next { s with
          script := low 3 :: wait 100 ++ put 3 (bit 0) :: wait h
            ++ [1, 2, 3, 4, 5, 6, 7].flatMap (fun k => low 2 :: wait h ++ rel 2 :: put 3 (bit k) :: wait h)
            ++ low 2 :: wait h ++ rel 2 :: rel 3 :: s.script } ∧
    exec (.framePs2H2d v h) s
      = .next { s with
          script := low 0 :: wait s.cfg.ps2hInhibitUs.toNat ++ low 1 :: rel 0 :: wait h ++ put 1 (bit 0)
            :: [bit 1, bit 2, bit 3, bit 4, bit 5, bit 6, bit 7, parity, true].flatMap
                (fun b => wait (2 * h) ++ [put 1 b])
            ++ wait (3 * h) ++ s.script }

/-! ## Queues and bits -/

/-- R41 to R45, R47, for any number of slots: a push appends at the end and writes the slot at `head` only; a pop takes
the front; a clear empties and keeps the slots; a full queue holds one byte less than it has slots; a push on it changes
nothing but the ghost trace. -/
def Obligations.QueuesAreFifo : Prop :=
  (∀ (n : Nat) (q : Queue) (v : Byte), q.wf n → q.full n = false →
    (q.put n v).toList n = q.toList n ++ [v] ∧
    ∀ a, a ≠ q.head → Memory.read (q.put n v).buf a = Memory.read q.buf a) ∧
  (∀ (n : Nat) (q : Queue), q.wf n → q.empty = false →
    q.toList n = q.front :: (q.drop n).toList n ∧ (q.drop n).buf = q.buf) ∧
  (∀ (n : Nat) (q : Queue), q.clear.toList n = [] ∧ q.clear.buf = q.buf) ∧
  (∀ (n : Nat) (q : Queue), q.wf n →
    (q.full n = true ↔ (q.toList n).length + 1 = n) ∧ (q.empty = true ↔ q.toList n = [])) ∧
  (∀ (i : Inst) (d : Dir) (v : Byte) (s : State), ((s.inst i).queue d).full s.slots = true →
    push i d v s = { s with events := s.events ++ [.overflow i d] }) ∧
  (∀ (i : Inst) (d : Dir) (v : Byte) (s : State), ((s.inst i).queue d).full s.slots = false →
    push i d v s = s.modInst i (fun w => w.setQueue d (((s.inst i).queue d).put s.slots v)))

/-- R63, R64, the sender: eight `put_bit()` put the bits of the accumulator on DATA, least significant first, and
leave `acc` = 0, `ones` = the number of ones and the odd parity symbol. -/
def Obligations.EightPutBits : Prop :=
  ∀ (i : Inst) (v : Byte) (s : State),
    let after (k : Nat) : State := (putBit i)^[k] (frameStart i v s)
    let count := ((List.range 8).filter v.getLsbD).length
    (∀ k, k < 8 → (after (k + 1)).own.get (dataOf i) = if v.getLsbD k then .rel else .low) ∧
    ((after 8).inst i).acc = 0 ∧ ((after 8).inst i).bitcnt = 8 ∧ ((after 8).inst i).ones.toNat = count ∧
    parityBit i (after 8) = (count % 2 == 0)

/-- R63, R46, the receiver: eight `get_bit()` with the bits of a byte on DATA, least significant first, assemble
it. -/
def Obligations.EightGetBits : Prop :=
  ∀ (i : Inst) (v : Byte) (s : State), s.own.get (dataOf i) = .rel →
    let sample (k : Nat) (t : State) : State :=
      getBit i { t with ext := t.ext.set (dataOf i) (if v.getLsbD k then .rel else .low) }
    let t := (List.range 8).foldl (fun t k => sample k t) (frameStart i 0 s)
    (t.inst i).acc = v ∧ (t.inst i).bitcnt = 8 ∧ (t.inst i).ones.toNat = ((List.range 8).filter v.getLsbD).length

/-! ## The PS/2 host engine -/

/-- R111, R112: the PS/2 host's idle entry. -/
def Obligations.P2hIdleEntry : Prop :=
  ∀ s : State,
    (s.p.txq.empty = true →
      p2hCheckForData s
        = { s with
            p := { s.p with edgeMode := .fall, edgePend := false, st := .idle }, tmr := timerWithout .P s.tmr }) ∧
    (s.p.txq.empty = false →
      p2hCheckForData s
        = { s with
            p := { s.p with
              edgeMode := .off, edgePend := false, txq := { s.p.txq with tail := (s.p.txq.tail + 1) % s.slots },
              acc := Memory.read s.p.txq.buf s.p.txq.tail, bitcnt := 0, ones := 0, st := .prepStart },
            own := { s.own with ps2Clk := .low },
            tmr := { run := true, cnt := s.cfg.ps2hInhibitUs, pend := false, owner := .P } })

/-- R113, R114, R115: the falls of a frame the PS/2 host receives, up to the parity symbol. -/
def Obligations.P2hReceiveFalls : Prop :=
  ∀ s : State, s.p.role = .host →
    let armed : Timer := { run := true, cnt := s.cfg.ps2hBitTimeoutUs, pend := false, owner := .P }
    (s.p.st = .idle →
      exec .p2hIdleEdge s
        = .next { s with p := { s.p with acc := 0, bitcnt := 0, ones := 0, st := .getBit }, tmr := armed }) ∧
    (s.p.st = .getBit →
      exec .p2hGetBitEdge s
        = .next { s with
            p := { s.p with
              acc := (s.p.acc >>> 1) ||| (if level .ps2Data s then 0x80 else 0),
              ones := s.p.ones + (if level .ps2Data s then 1 else 0),
              bitcnt := s.p.bitcnt + 1,
              st := if s.p.bitcnt + 1 = 8 then .getParity else .getBit },
            tmr := armed }) ∧
    (s.p.st = .getParity → exec .p2hGetParityEdge s = .next { s with p := { s.p with st := .waitStop }, tmr := armed })

/-- R116, R243: the stop fall commits the byte and begins the acknowledge; on a full queue the byte is dropped and
the acknowledge is given all the same. -/
def Obligations.P2hStopFallCommits : Prop :=
  ∀ s : State, s.p.role = .host → s.p.st = .waitStop →
    exec .p2hWaitStopEdge s
      = .next { s with
          p := { s.p with
            rxq := if s.p.rxq.full s.slots then s.p.rxq else s.p.rxq.put s.slots s.p.acc,
            acc := 0, bitcnt := 0, ones := 0, edgeMode := .off, edgePend := false, st := .getAck },
          own := { s.own with ps2Data := .low },
          tmr := { run := true, cnt := s.cfg.ps2hAckUs, pend := false, owner := .P },
          events := if s.p.rxq.full s.slots then s.events ++ [.overflow .P .rx] else s.events }

/-- R117, R125, R244: the ends of a received and of a sent frame run the idle entry; a missing acknowledge is
labelled and changes nothing. -/
def Obligations.P2hFrameEnds : Prop :=
  ∀ s : State, s.p.role = .host →
    (s.p.st = .getAck →
      exec .p2hGetAckTmr s = .next (p2hCheckForData { s with own := { s.own with ps2Data := .rel } })) ∧
    (s.p.st = .sendStop →
      exec .p2hSendStopEdge s
        = .next (p2hCheckForData
            { s with
              p := { s.p with acc := 0, bitcnt := 0, ones := 0 },
              events := if level .ps2Data s then s.events ++ [.noAck] else s.events }))

/-- R118, R119, R120, R126, R127, R128 with R131: each wait of the PS/2 host that times out. -/
def Obligations.P2hTimeouts : Prop :=
  ∀ (j : Instr) (c : St),
    (j, c) ∈ [(Instr.p2hGetBitTmr, St.getBit), (.p2hGetParityTmr, .getParity), (.p2hWaitStopTmr, .waitStop),
      (.p2hSendBitTmr, .sendBit), (.p2hSendParityTmr, .sendParity), (.p2hSendStopTmr, .sendStop)] →
    ∀ s : State, s.p.role = .host → s.p.st = c →
      exec j s
        = .next (p2hCheckForData
            { s with
              p := { s.p with acc := 0, bitcnt := 0, ones := 0 },
              own := { s.own with ps2Data := .rel },
              events := s.events ++ [.timeout c] })

/-- R121: request-to-send. -/
def Obligations.P2hRequestToSend : Prop :=
  ∀ s : State, s.p.role = .host → s.p.st = .prepStart →
    exec .p2hPrepStartTmr s
      = .next { s with
          p := { s.p with edgeMode := .fall, edgePend := false, st := .sendStart },
          own := { s.own with ps2Clk := .rel, ps2Data := .low } }

/-- R122, R123, R124: the symbols the PS/2 host puts at the device's falls. -/
def Obligations.P2hPutsSymbols : Prop :=
  ∀ s : State, s.p.role = .host →
    let armed : Timer := { run := true, cnt := s.cfg.ps2hBitTimeoutUs, pend := false, owner := .P }
    let bit := s.p.acc.getLsbD 0
    let data (b : Bool) : LineBank := { s.own with ps2Data := if b then .rel else .low }
    let put : InstState :=
      { s.p with
        acc := s.p.acc >>> 1, ones := s.p.ones + (if bit then 1 else 0), bitcnt := s.p.bitcnt + 1, st := .sendBit }
    (s.p.st = .sendStart → exec .p2hSendStartEdge s = .next { s with p := put, own := data bit, tmr := armed }) ∧
    (s.p.st = .sendBit → s.p.bitcnt < 8 →
      exec .p2hSendBitEdge s = .next { s with p := put, own := data bit, tmr := armed }) ∧
    (s.p.st = .sendBit → 8 ≤ s.p.bitcnt →
      exec .p2hSendBitEdge s
        = .next { s with
            p := { s.p with st := .sendParity }, own := data (s.p.ones.toNat % 2 == 0), tmr := armed }) ∧
    (s.p.st = .sendParity →
      exec .p2hSendParityEdge s
        = .next { s with p := { s.p with st := .sendStop }, own := data true, tmr := armed })

/-! ## The PS/2 device engine -/

/-- R141, R142, R166, R144, R145: the PS/2 device looks at the bus: inhibit first, then the host's request, then its
own byte. -/
def Obligations.P2dBusCheck : Prop :=
  ∀ s : State,
    let armed : Timer := { run := true, cnt := s.cfg.ps2HalfCycleUs, pend := false, owner := .P }
    let clk := level .ps2Clk s
    let data := level .ps2Data s
    (clk = false →
      p2dCheckBus s
        = { s with
            p := { s.p with edgeMode := .rise, edgePend := false, st := .hostInhibit },
            tmr := timerWithout .P s.tmr }) ∧
    (clk = true → data = false →
      p2dCheckBus s
        = { s with
            p := { s.p with
              edgeMode := .off, edgePend := false, acc := 0, bitcnt := 0, ones := 0, st := .waitStart },
            tmr := armed }) ∧
    (clk = true → data = true → s.p.txq.empty = false →
      p2dCheckBus s
        = { s with
            p := { s.p with
              edgeMode := .off, edgePend := false, txq := { s.p.txq with tail := (s.p.txq.tail + 1) % s.slots },
              acc := Memory.read s.p.txq.buf s.p.txq.tail, bitcnt := 0, ones := 0, st := .prepStart },
            own := { s.own with ps2Data := .low },
            tmr := armed }) ∧
    (clk = true → data = true → s.p.txq.empty = true →
      p2dCheckBus s
        = { s with
            p := { s.p with edgeMode := .fall, edgePend := false, st := .idle }, tmr := timerWithout .P s.tmr }) ∧
    (s.p.role = .device → s.p.st = .hostInhibit → exec .p2dHostInhibitEdge s = .next (p2dCheckBus s)) ∧
    (s.p.role = .device → s.p.st = .idle →
      exec .p2dIdleEdge s
        = .next { s with p := { s.p with edgeMode := .rise, edgePend := false, st := .hostInhibit } })

/-- R146, R147, R149, R151, R153 with R143: the send ticks that find CLOCK low abort to `HOST_INHIBIT`; those that find
it high let time pass, make CLOCK fall, or, at the stop symbol, begin the holdoff. -/
def Obligations.P2dSendTicks : Prop :=
  ∀ s : State, s.p.role = .device →
    let armed : Timer := { run := true, cnt := s.cfg.ps2HalfCycleUs, pend := false, owner := .P }
    let clk := level .ps2Clk s
    let aborted : State :=
      { s with
        p := { s.p with
          acc := 0, bitcnt := 0, ones := 0, edgeMode := .rise, edgePend := false, st := .hostInhibit },
        own := { s.own with ps2Clk := .rel, ps2Data := .rel },
        tmr := timerWithout .P s.tmr,
        events := s.events ++ [.abort s.p.st] }
    let fall (c : St) : State :=
      { s with p := { s.p with st := c }, own := { s.own with ps2Clk := .low }, tmr := armed }
    (s.p.st = .prepStart →
      exec .p2dPrepStartTmr s
        = .next (if clk = false then aborted else { s with p := { s.p with st := .sendStart }, tmr := armed })) ∧
    (s.p.st = .sendStart → exec .p2dSendStartTmr s = .next (if clk = false then aborted else fall .prepBit)) ∧
    (s.p.st = .sendBit →
      exec .p2dSendBitTmr s
        = .next (if clk = false then aborted else fall (if s.p.bitcnt = 8 then .prepParity else .prepBit))) ∧
    (s.p.st = .sendParity → exec .p2dSendParityTmr s = .next (if clk = false then aborted else fall .prepStop)) ∧
    (s.p.st = .sendStop →
      exec .p2dSendStopTmr s
        = .next (if clk = false then aborted else
            { s with
              p := { s.p with acc := 0, bitcnt := 0, ones := 0, hold := s.cfg.ps2HoldoffTicks, st := .holdoff },
              own := { s.own with ps2Clk := .low }, ackSeen := !s.cfg.options.getLsbD 0, tmr := armed }))

/-- R148, R150, R152: the send ticks that put a symbol on DATA and let CLOCK rise. -/
def Obligations.P2dPutsSymbols : Prop :=
  ∀ s : State, s.p.role = .device →
    let armed : Timer := { run := true, cnt := s.cfg.ps2HalfCycleUs, pend := false, owner := .P }
    let rise (b : Bool) : LineBank := { s.own with ps2Clk := .rel, ps2Data := if b then .rel else .low }
    (s.p.st = .prepBit →
      exec .p2dPrepBitTmr s
        = .next { s with
            p := { s.p with
              acc := s.p.acc >>> 1, ones := s.p.ones + (if s.p.acc.getLsbD 0 then 1 else 0),
              bitcnt := s.p.bitcnt + 1, st := .sendBit },
            own := rise (s.p.acc.getLsbD 0), tmr := armed }) ∧
    (s.p.st = .prepParity →
      exec .p2dPrepParityTmr s
        = .next { s with p := { s.p with st := .sendParity }, own := rise (s.p.ones.toNat % 2 == 0), tmr := armed }) ∧
    (s.p.st = .prepStop →
      exec .p2dPrepStopTmr s = .next { s with p := { s.p with st := .sendStop }, own := rise true, tmr := armed })

/-- R162: the end of a received frame commits the byte and begins the holdoff; a full queue drops the byte. -/
def Obligations.P2dCommits : Prop :=
  ∀ s : State, s.p.role = .device → s.p.st = .getAck →
    exec .p2dGetAckTmr s
      = .next { s with
          p := { s.p with
            rxq := if s.p.rxq.full s.slots then s.p.rxq else s.p.rxq.put s.slots s.p.acc,
            acc := 0, bitcnt := 0, ones := 0, hold := s.cfg.ps2HoldoffTicks, st := .holdoff },
          own := { s.own with ps2Clk := .rel, ps2Data := .rel }, ackSeen := true,
          tmr := { run := true, cnt := s.cfg.ps2HalfCycleUs, pend := false, owner := .P },
          events := if s.p.rxq.full s.slots then s.events ++ [.overflow .P .rx] else s.events }

/-- R154: one tick of the PS/2 device's holdoff. -/
def Obligations.P2dHoldoffTick : Prop :=
  ∀ s : State, s.p.role = .device → s.p.st = .holdoff →
    let armed : Timer := { run := true, cnt := s.cfg.ps2HalfCycleUs, pend := false, owner := .P }
    let freed : State := { s with own := { s.own with ps2Clk := .rel } }
    let counted : State := { freed with p := { s.p with hold := s.p.hold - 1 } }
    (s.ackSeen = false →
      exec .p2dHoldoffTmr s = .next { freed with ackSeen := !level .ps2Data s, tmr := armed }) ∧
    (s.ackSeen = true → s.p.hold ≠ 1 → exec .p2dHoldoffTmr s = .next { counted with tmr := armed }) ∧
    (s.ackSeen = true → s.p.hold = 1 → exec .p2dHoldoffTmr s = .next (p2dCheckBus counted))

/-- R155 to R161: the ticks of a frame the PS/2 device receives; DATA is sampled before CLOCK is pulled low (R55). -/
def Obligations.P2dReceiveTicks : Prop :=
  ∀ s : State, s.p.role = .device →
    let armed : Timer := { run := true, cnt := s.cfg.ps2HalfCycleUs, pend := false, owner := .P }
    let b := level .ps2Data s
    let tick (c : St) (clk data : Drive) : State :=
      { s with p := { s.p with st := c }, own := { s.own with ps2Clk := clk, ps2Data := data }, tmr := armed }
    (s.p.st = .waitStart → exec .p2dWaitStartTmr s = .next (tick .getStart .low s.own.ps2Data)) ∧
    (s.p.st = .getStart → exec .p2dGetStartTmr s = .next (tick .waitBit .rel s.own.ps2Data)) ∧
    (s.p.st = .waitBit →
      exec .p2dWaitBitTmr s
        = .next { s with
            p := { s.p with
              acc := (s.p.acc >>> 1) ||| (if b then 0x80 else 0), ones := s.p.ones + (if b then 1 else 0),
              bitcnt := s.p.bitcnt + 1, st := .getBit },
            own := { s.own with ps2Clk := .low }, tmr := armed }) ∧
    (s.p.st = .getBit →
      exec .p2dGetBitTmr s
        = .next (tick (if s.p.bitcnt = 8 then .getParity else .waitBit) .rel s.own.ps2Data)) ∧
    (s.p.st = .getParity → exec .p2dGetParityTmr s = .next (tick .waitStop .low s.own.ps2Data)) ∧
    (s.p.st = .waitStop → exec .p2dWaitStopTmr s = .next (tick .waitAck .rel .low)) ∧
    (s.p.st = .waitAck → exec .p2dWaitAckTmr s = .next (tick .getAck .low s.own.ps2Data))

/-! ## The XT host engine -/

/-- R182, R183, R181: the XT host samples at every fall and commits at the eighth. -/
def Obligations.XthFalls : Prop :=
  ∀ s : State, s.x.role = .host →
    let b := level .xtData s
    let armed : Timer := { run := true, cnt := s.cfg.xthBitTimeoutUs, pend := false, owner := .X }
    let acc (a : Byte) : Byte := (a >>> 1) ||| (if b then 0x80 else 0)
    (s.x.st = .idle →
      exec .xthIdleEdge s
        = .next { s with
            x := { s.x with acc := acc 0, bitcnt := 1, ones := if b then 1 else 0, st := .getBit }, tmr := armed }) ∧
    (s.x.st = .getBit → s.x.bitcnt ≠ 7 →
      exec .xthGetBitEdge s
        = .next { s with
            x := { s.x with
              acc := acc s.x.acc, bitcnt := s.x.bitcnt + 1, ones := s.x.ones + (if b then 1 else 0) },
            tmr := armed }) ∧
    (s.x.st = .getBit → s.x.bitcnt = 7 →
      exec .xthGetBitEdge s
        = .next { s with
            x := { s.x with
              rxq := if s.x.rxq.full s.slots then s.x.rxq else s.x.rxq.put s.slots (acc s.x.acc),
              acc := 0, bitcnt := 0, ones := 0, edgeMode := .fall, edgePend := false, st := .idle },
            tmr := timerWithout .X s.tmr,
            events := if s.x.rxq.full s.slots then s.events ++ [.overflow .X .rx] else s.events })

/-- R184, R185, R181: the XT host's timeout and the ticks of its reset pulse. -/
def Obligations.XthTicks : Prop :=
  ∀ s : State, s.x.role = .host →
    (s.x.st = .getBit →
      exec .xthGetBitTmr s
        = .next { s with
            x := { s.x with acc := 0, bitcnt := 0, ones := 0, edgeMode := .fall, edgePend := false, st := .idle },
            tmr := timerWithout .X s.tmr,
            events := s.events ++ [.timeout .getBit] }) ∧
    (s.x.st = .reset → s.x.hold ≠ 1 →
      exec .xthResetTmr s
        = .next { s with
            x := { s.x with hold := s.x.hold - 1 },
            tmr := { run := true, cnt := s.cfg.xtHalfCycleUs, pend := false, owner := .X } }) ∧
    (s.x.st = .reset → s.x.hold = 1 →
      exec .xthResetTmr s
        = .next { s with
            x := { s.x with hold := 0, edgeMode := .fall, edgePend := false, st := .idle },
            own := { s.own with xtClk := .rel },
            tmr := timerWithout .X s.tmr })

/-! ## The XT device engine -/

/-- R191, R194: the XT device looks at the bus. -/
def Obligations.XtdBusCheck : Prop :=
  ∀ s : State,
    let armed (d : Byte) : Timer := { run := true, cnt := d, pend := false, owner := .X }
    let clk := level .xtClk s
    let data := level .xtData s
    let inhibited : State :=
      { s with
        x := { s.x with edgeMode := .off, edgePend := false, hold := 0, st := .hostInhibit },
        tmr := armed s.cfg.xtHalfCycleUs }
    (clk = false → xtdCheckBus s = inhibited) ∧
    (clk = true → s.x.txq.empty = false → data = true →
      xtdCheckBus s
        = { s with
            x := { s.x with
              edgeMode := .off, edgePend := false, txq := { s.x.txq with tail := (s.x.txq.tail + 1) % s.slots },
              acc := Memory.read s.x.txq.buf s.x.txq.tail, bitcnt := 0, ones := 0, st := .sendStart },
            own := { s.own with xtData := .low },
            tmr := armed s.cfg.xtStartUs }) ∧
    (clk = true → s.x.txq.empty = false → data = false →
      xtdCheckBus s
        = { s with
            x := { s.x with edgeMode := .off, edgePend := false, hold := 1, st := .holdoff },
            tmr := armed s.cfg.xtHalfCycleUs }) ∧
    (clk = true → s.x.txq.empty = true →
      xtdCheckBus s
        = { s with
            x := { s.x with edgeMode := .fall, edgePend := false, st := .idle }, tmr := timerWithout .X s.tmr }) ∧
    (s.x.role = .device → s.x.st = .idle → exec .xtdIdleEdge s = .next inhibited)

/-- R195, R196, R197 with R192: the ticks of a frame the XT device sends. CLOCK low where the rule looks drops the
frame and looks at the bus again; with CLOCK held low by the far end that ends in `HOST_INHIBIT` with `hold` = 0. -/
def Obligations.XtdSendTicks : Prop :=
  ∀ s : State, s.x.role = .device →
    let armed : Timer := { run := true, cnt := s.cfg.xtHalfCycleUs, pend := false, owner := .X }
    let clk := level .xtClk s
    let bit := s.x.acc.getLsbD 0
    let data (b : Bool) (o : LineBank) : LineBank := { o with xtData := if b then .rel else .low }
    let put : InstState :=
      { s.x with
        acc := s.x.acc >>> 1, ones := s.x.ones + (if bit then 1 else 0), bitcnt := s.x.bitcnt + 1, st := .sendBit }
    let dropped : State :=
      { s with
        x := { s.x with acc := 0, bitcnt := 0, ones := 0 },
        own := { s.own with xtClk := .rel, xtData := .rel },
        events := s.events ++ [.abort s.x.st] }
    (s.x.st = .sendStart →
      exec .xtdSendStartTmr s
        = .next (if clk = false then xtdCheckBus dropped else
            { s with x := put, own := data bit s.own, tmr := armed })) ∧
    (s.x.st = .sendBit →
      exec .xtdSendBitTmr s
        = .next (if clk = false then xtdCheckBus dropped else
            { s with x := { s.x with st := .prepBit }, own := { s.own with xtClk := .low }, tmr := armed })) ∧
    (s.ext.xtClk = .low →
      xtdCheckBus dropped
        = { dropped with
            x := { dropped.x with edgeMode := .off, edgePend := false, hold := 0, st := .hostInhibit },
            tmr := armed }) ∧
    (s.x.st = .prepBit → s.x.bitcnt < 8 →
      exec .xtdPrepBitTmr s
        = .next { s with x := put, own := data bit { s.own with xtClk := .rel }, tmr := armed }) ∧
    (s.x.st = .prepBit → 8 ≤ s.x.bitcnt →
      exec .xtdPrepBitTmr s
        = .next { s with
            x := { s.x with acc := 0, bitcnt := 0, ones := 0, hold := s.cfg.xtHoldoffTicks, st := .holdoff },
            own := { s.own with xtClk := .rel, xtData := .rel }, tmr := armed })

/-- R198, R199, R193: the XT device's holdoff ticks, its polls of an inhibit, and the reset request on the poll that
makes `hold` equal to `XT_RESET_TICKS`. With fewer than the two slots R7 asks for, a cleared queue could take no byte. -/
def Obligations.XtdHoldoffAndPolls : Prop :=
  ∀ s : State, s.x.role = .device →
    let armed : Timer := { run := true, cnt := s.cfg.xtHalfCycleUs, pend := false, owner := .X }
    let counted (n : Byte) : State := { s with x := { s.x with hold := n } }
    (s.x.st = .holdoff → s.x.hold ≠ 1 →
      exec .xtdHoldoffTmr s = .next { counted (s.x.hold - 1) with tmr := armed }) ∧
    (s.x.st = .holdoff → s.x.hold = 1 → exec .xtdHoldoffTmr s = .next (xtdCheckBus (counted 0))) ∧
    (s.x.st = .hostInhibit → level .xtClk s = true → exec .xtdHostInhibitTmr s = .next (xtdCheckBus s)) ∧
    (s.x.st = .hostInhibit → level .xtClk s = false → s.x.hold = 255 →
      exec .xtdHostInhibitTmr s = .next { s with tmr := armed }) ∧
    (s.x.st = .hostInhibit → level .xtClk s = false → s.x.hold ≠ 255 → s.x.hold + 1 ≠ s.cfg.xtResetTicks →
      exec .xtdHostInhibitTmr s = .next { counted (s.x.hold + 1) with tmr := armed }) ∧
    (s.x.st = .hostInhibit → level .xtClk s = false → s.x.hold ≠ 255 → s.x.hold + 1 = s.cfg.xtResetTicks →
      2 ≤ s.slots →
      exec .xtdHostInhibitTmr s
        = .next { s with
            x := { s.x with
              hold := s.x.hold + 1,
              txq := { buf := Memory.write s.x.txq.buf 0 s.cfg.xtBatCode, head := 1, tail := 0 },
              rxq := { s.x.rxq with head := 0, tail := 0 } },
            tmr := armed,
            events := s.events ++ [.resetRequest] })

/-! ## Whole frames -/

/-- R133, R113 to R116: eleven falls that carry a start symbol, the bits of `v` and any parity and stop symbols make
the PS/2 host push exactly `v` and begin its acknowledge. -/
def Obligations.P2hReceivesFrame : Prop :=
  ∀ (v : Byte) (start parity stop : Bool) (s : State),
    s.p.role = .host → s.p.st = .idle → s.own.ps2Data = .rel → s.p.rxq.full s.slots = false →
      ∃ t, runReceiving .ps2Data
          [(.p2hIdleEdge, start), (.p2hGetBitEdge, v.getLsbD 0), (.p2hGetBitEdge, v.getLsbD 1),
            (.p2hGetBitEdge, v.getLsbD 2), (.p2hGetBitEdge, v.getLsbD 3), (.p2hGetBitEdge, v.getLsbD 4),
            (.p2hGetBitEdge, v.getLsbD 5), (.p2hGetBitEdge, v.getLsbD 6), (.p2hGetBitEdge, v.getLsbD 7),
            (.p2hGetParityEdge, parity), (.p2hWaitStopEdge, stop)] s = .next t ∧
        t.p.rxq = s.p.rxq.put s.slots v ∧ t.p.st = .getAck ∧ t.own.ps2Data = .low ∧ t.events = s.events

/-- R60 with R146 to R153: the PS/2 device sends `v`: CLOCK and DATA after each tick of the frame. At the eleven falls
DATA carries the start symbol, the bits of `v` least significant first, the odd parity and the stop symbol, and DATA
changes only as CLOCK rises. -/
def Obligations.P2dSendsFrame : Prop :=
  ∀ (v : Byte) (s : State),
    s.p.role = .device → s.p.st = .prepStart → s.p.acc = v → s.p.bitcnt = 0 → s.p.ones = 0 →
    s.own.ps2Clk = .rel → s.own.ps2Data = .low → s.ext.ps2Clk = .rel → s.ext.ps2Data = .rel →
      let parity := ((List.range 8).filter v.getLsbD).length % 2 == 0
      let sent := [v.getLsbD 0, v.getLsbD 1, v.getLsbD 2, v.getLsbD 3, v.getLsbD 4, v.getLsbD 5, v.getLsbD 6,
        v.getLsbD 7, parity, true]
      let r := runShowing .P
        ([Instr.p2dPrepStartTmr, .p2dSendStartTmr]
          ++ (List.replicate 8 [Instr.p2dPrepBitTmr, .p2dSendBitTmr]).flatten
          ++ [.p2dPrepParityTmr, .p2dSendParityTmr, .p2dPrepStopTmr, .p2dSendStopTmr]) s
      r.2 = [(true, false), (false, false)] ++ sent.flatMap (fun b => [(true, b), (false, b)]) ∧
      ∃ t, r.1 = .next t ∧ t.p.st = .holdoff ∧ t.p.hold = s.cfg.ps2HoldoffTicks ∧ t.events = s.events

/-- R61 with R122 to R124 and R155 to R162: the PS/2 host that sends `v` shows on DATA, after falls 1 to 10, whatever CLOCK is, the bits of
`v` least significant first, the odd parity and the stop symbol; and the PS/2 device that finds those bits on DATA when
it samples pushes exactly `v`, whatever DATA is at its other ticks. -/
def Obligations.Ps2HostToDeviceFrame : Prop :=
  ∀ (v : Byte) (other : Nat → Bool) (s : State),
    let parity := ((List.range 8).filter v.getLsbD).length % 2 == 0
    (s.p.role = .host → s.p.st = .sendStart → s.p.acc = v → s.p.bitcnt = 0 → s.p.ones = 0 →
      s.ext.ps2Data = .rel →
        let r := runShowing .P
          ([Instr.p2hSendStartEdge] ++ List.replicate 8 .p2hSendBitEdge ++ [.p2hSendParityEdge]) s
        r.2.map Prod.snd = (List.range 8).map v.getLsbD ++ [parity, true] ∧
        ∃ t, r.1 = .next t ∧ t.p.st = .sendStop ∧ t.events = s.events) ∧
    (s.p.role = .device → s.p.st = .waitStart → s.p.acc = 0 → s.p.bitcnt = 0 → s.p.ones = 0 →
      s.own.ps2Data = .rel → s.p.rxq.full s.slots = false →
        ∃ t, runReceiving .ps2Data
            ([(Instr.p2dWaitStartTmr, other 0), (.p2dGetStartTmr, other 1)]
              ++ (List.range 8).flatMap
                  (fun k => [(Instr.p2dWaitBitTmr, v.getLsbD k), (.p2dGetBitTmr, other (k + 2))])
              ++ [(.p2dGetParityTmr, other 10), (.p2dWaitStopTmr, other 11), (.p2dWaitAckTmr, other 12),
                (.p2dGetAckTmr, other 13)]) s = .next t ∧
          t.p.rxq = s.p.rxq.put s.slots v ∧ t.p.st = .holdoff ∧ t.p.hold = s.cfg.ps2HoldoffTicks ∧ t.events = s.events)

/-- R62 with R182, R183 and R195 to R197: the XT device puts the bits of `v` on DATA at its eight falls, least
significant first, and the XT host that samples those eight symbols pushes exactly `v`. -/
def Obligations.XtFrameRoundTrip : Prop :=
  ∀ (v : Byte) (s : State),
    let bits := (List.range 8).map v.getLsbD
    (s.x.role = .device → s.x.st = .sendStart → s.x.acc = v → s.x.bitcnt = 0 → s.x.ones = 0 →
      s.own.xtClk = .rel → s.ext.xtClk = .rel → s.ext.xtData = .rel →
        let r := runShowing .X
          ([Instr.xtdSendStartTmr, .xtdSendBitTmr]
            ++ (List.replicate 7 [Instr.xtdPrepBitTmr, .xtdSendBitTmr]).flatten ++ [.xtdPrepBitTmr]) s
        r.2 = bits.flatMap (fun b => [(true, b), (false, b)]) ++ [(true, true)] ∧
        ∃ t, r.1 = .next t ∧ t.x.st = .holdoff ∧ t.x.hold = s.cfg.xtHoldoffTicks) ∧
    (s.x.role = .host → s.x.st = .idle → s.own.xtData = .rel → s.x.rxq.full s.slots = false →
      ∃ t, runReceiving .xtData (List.zip (Instr.xthIdleEdge :: List.replicate 7 .xthGetBitEdge) bits) s = .next t ∧
        t.x.rxq = s.x.rxq.put s.slots v ∧ t.x.st = .idle ∧ t.events = s.events)

/-! ## The whole machine -/

/-- R30 with the reset column of R29, and R280: the state after hardware reset, and that its `cfg` satisfies the
relations between timing values. Nothing is said of the slots and of the far end's drives, to which R30 gives no
value. -/
def Obligations.ResetState : Prop :=
  let s := State.reset
  (∀ i, (s.inst i).role = .none ∧ (s.inst i).st = .idle ∧ (s.inst i).acc = 0 ∧ (s.inst i).bitcnt = 0 ∧
    (s.inst i).ones = 0 ∧ (s.inst i).hold = 0 ∧ (s.inst i).edgeMode = .off ∧ (s.inst i).edgePend = false ∧
    ∀ d, ((s.inst i).queue d).head = 0 ∧ ((s.inst i).queue d).tail = 0) ∧
  s.ackSeen = true ∧ (∀ l, s.own.get l = .rel) ∧
  s.tmr = { run := false, cnt := 0, pend := false, owner := .none } ∧
  s.cfg = { ps2HalfCycleUs := 40, ps2HoldoffTicks := 53, ps2hInhibitUs := 100, ps2hBitTimeoutUs := 100,
            ps2hAckUs := 50, xtStartUs := 100, xtHalfCycleUs := 50, xtHoldoffTicks := 10, xtResetTicks := 60,
            xthBitTimeoutUs := 200, xthResetTicks := 100, xtBatCode := 0xAA, options := 0 } ∧
  s.now = 0 ∧ Interoperable s.cfg

/-- R28: the invariant holds after reset, and so does what R28 (c) says of the lines, what R28 (d) says of a timer that
nobody has taken, and the tables' upper bounds. -/
def Obligations.InvariantAtReset : Prop :=
  BlockInv State.reset ∧
  ∀ i, ReleasedUnclaimed i State.reset ∧ KeepsTimer i State.reset ∧ Bounded i State.reset

/-- R28: every step from a state with the invariant keeps it: counters, queues, the per-state tables of the four
engines (R130, R164, R187, R201, with the symbols on DATA), timer ownership (R94), the legal `cfg` values (R29) and the
one deliverable notification; and no step changes `QUEUE_SLOTS` (R27). -/
def Obligations.StepKeepsInvariant : Prop :=
  ∀ s t : State, BlockInv s → step s = .next t → BlockInv t ∧ t.slots = s.slots

/-- What R28 (c), R28 (d) and the tables say that no single state shows. The drive of a line of an instance without a
role is what `LINE.ASSERT` and `LINE.RELEASE` of that line make it (R87, R88) and nothing else changes it; so R28 (c)
holds at the end of every run from a state in which it holds (reset is one, `InvariantAtReset`) that asserts no line of
the instance, and a step breaks it by `LINE.ASSERT` alone: that R87 goes before R28 (c) there is the model's reading
(notes/assumptions/10.md). Nothing but `EDGE.SET` changes the mode of such an instance's detector. An instance that waits
for the timer loses it only to the other instance (R95). CLOCK is low in the PS/2 device's `HOLDOFF` only from the entry
by R153 on (R164). The tables' upper bounds hold as long as `cfg` is not written (notes/assumptions/11.md). -/
def Obligations.TablesAcrossSteps : Prop :=
  (∀ (js : List Instr) (s t : State) (i : Inst), runOps js s = .next t → ReleasedUnclaimed i s →
    (∀ l n, Instr.lineAssert l ∈ js → lineOfId l.toNat = some n → instOfLine n ≠ some i) → ReleasedUnclaimed i t) ∧
  ∀ (j : Instr) (s t : State), exec j s = .next t →
    (∀ n i, instOfLine n = some i → (t.inst i).role = .none →
      t.own.get n = s.own.get n ∨
      ∃ l, lineOfId l.toNat = some n ∧
        (j = .lineAssert l ∧ t.own.get n = .low ∨ j = .lineRelease l ∧ t.own.get n = .rel)) ∧
    (∀ i, ReleasedUnclaimed i s →
      ReleasedUnclaimed i t ∨ ∃ l n, j = .lineAssert l ∧ lineOfId l.toNat = some n ∧ instOfLine n = some i) ∧
    (∀ i, (t.inst i).role = .none → (t.inst i).edgeMode = (s.inst i).edgeMode ∨ ∃ m, j = .edgeSet i m) ∧
    (BlockInv s →
      (∀ i, KeepsTimer i s → KeepsTimer i t ∨ t.tmr.owner = ownerOf (otherInst i)) ∧
      (t.p.role = .device → t.p.st = .holdoff → t.own.ps2Clk = .low →
        s.p.st = .sendStop ∨ s.p.st = .holdoff ∧ s.own.ps2Clk = .low) ∧
      ((∀ i, Bounded i s) → t.cfg = s.cfg → ∀ i, Bounded i t))

/-- R259: under the invariant no step faults; and with words in `script` that the foreground and the environment can
issue, every step completes. -/
def Obligations.SpuriousDispatchUnreachable : Prop :=
  ∀ s : State, BlockInv s →
    (∀ f, step s ≠ .fault f) ∧ (ScriptOk s → ∃ t, step s = .next t ∧ ScriptOk t)

/-- R99, R250: under the invariant a handler step leaves no notification deliverable. -/
def Obligations.HandlerRaisesNothing : Prop :=
  ∀ s t : State, BlockInv s → deliverable s ≠ none → step s = .next t → deliverable t = none

/-- R11: a role is written once, by `INIT` of its instance, and by nothing else. -/
def Obligations.RoleWrittenOnceByInit : Prop :=
  ∀ (j : Instr) (s t : State) (i : Inst), exec j s = .next t →
    (t.inst i).role = (s.inst i).role ∨
      (s.inst i).role = .none ∧
        (i = .P ∧ (j = .pInit 1 ∧ t.p.role = .host ∨ j = .pInit 2 ∧ t.p.role = .device) ∨
          i = .X ∧ (j = .xInit 1 ∧ t.x.role = .host ∨ j = .xInit 2 ∧ t.x.role = .device))

/-- R31, R85, R251, R254: a transition touches its own instance, the timer and the two lines of the instance, and
nothing else but the ghost trace. -/
def Obligations.HandlersTouchOnlyTheirInstance : Prop :=
  ∀ (e : Engine) (c : St) (v : Ev) (j : Instr) (s t : State),
    transitionOf e c v = some j → exec j s = .next t →
      let i := (engineInst e).1
      t.inst (otherInst i) = s.inst (otherInst i) ∧ (t.inst i).role = (s.inst i).role ∧
      (∀ l, l ≠ clkOf i → l ≠ dataOf i → t.own.get l = s.own.get l) ∧ (i = .X → t.ackSeen = s.ackSeen) ∧
      (t.tmr.owner = s.tmr.owner ∨ t.tmr.owner = ownerOf i ∨ s.tmr.owner = ownerOf i) ∧
      t.ext = s.ext ∧ t.cfg = s.cfg ∧ t.now = s.now ∧ t.ret = s.ret ∧ t.refused = s.refused ∧ t.script = s.script ∧
      t.slots = s.slots

/-- R255, R26: the ghost trace and `now` are read by no rule: two states that differ only in them make steps that
differ only in them. -/
def Obligations.TraceAndTimeAreReadByNoRule : Prop :=
  ∀ (s : State) (es : List ErrorEvent) (n : Nat),
    match step s, step { s with events := es, now := n } with
    | .next t, .next u => { u with events := t.events, now := t.now } = t
    | .fault f, .fault g => f = g
    | .refused q, .refused r => q = r
    | _, _ => False

/-- R256: with at least the two slots R7 asks for (`SlotsInv`, which every step keeps), a step raises at most one event;
and it never takes one back. -/
def Obligations.AtMostOneEventPerStep : Prop :=
  ∀ s t : State, 2 ≤ s.slots → step s = .next t → t.events = s.events ∨ ∃ e, t.events = s.events ++ [e]

/-- R285: in a quiescent state a tick changes nothing but `now` and a countdown of the foreground, and the state stays
quiescent. -/
def Obligations.QuiescentTicks : Prop :=
  ∀ s : State, quiescent s → TimerInv s.tmr →
    ∃ t, exec .envTick s = .next t ∧ quiescent t ∧ t = { s with now := s.now + 1, tmr := t.tmr } ∧
      (s.tmr.owner ≠ .FG → t.tmr = s.tmr)
end

