-- ==== Sys2Proof/Laws/Memory.lean ====
section
/-!
SUPPORT. Queue slots: a read after a write, and the canonical form under a write (spec/20_memory.md R40).
-/

namespace Sys2Proof.Machine

open Sys2Proof

theorem Memory.read_of_below (m : Memory) (a : Nat) (h : ∀ c ∈ m, a < c.1) :
    Memory.read m a = Config.slotUnwritten := by
  induction m with
  | nil => rfl
  | cons c rest ih =>
    have hc : a < c.1 := h c (by simp)
    simp only [Memory.read, Nat.ne_of_lt hc, if_false]
    exact ih fun d hd => h d (by simp [hd])

theorem Memory.read_putFront_same (m : Memory) (a : Nat) (v : Byte) (h : ∀ c ∈ m, a < c.1) :
    Memory.read (Memory.putFront m a v) a = v := by
  unfold Memory.putFront
  split
  · rename_i hv; rw [Memory.read_of_below m a h, hv]
  · simp [Memory.read]

theorem Memory.read_putFront_other (m : Memory) {a b : Nat} (v : Byte) (h : b ≠ a) :
    Memory.read (Memory.putFront m a v) b = Memory.read m b := by
  unfold Memory.putFront
  split
  · rfl
  · simp [Memory.read, h]

/-- A read of the slot just written gives the byte written. -/
theorem Memory.read_write_same (m : Memory) (a : Nat) (v : Byte) (h : m.Pairwise (fun c d => c.1 < d.1)) :
    Memory.read (Memory.write m a v) a = v := by
  induction m with
  | nil => exact Memory.read_putFront_same [] a v (by simp)
  | cons c rest ih =>
    obtain ⟨hc, hr⟩ := List.pairwise_cons.mp h
    simp only [Memory.write]
    split
    · rename_i hlt
      refine Memory.read_putFront_same _ a v fun d hd => ?_
      rcases List.mem_cons.mp hd with rfl | hd
      · exact hlt
      · exact hlt.trans (hc d hd)
    · split
      · rename_i heq
        exact Memory.read_putFront_same rest a v fun d hd => heq ▸ hc d hd
      · rename_i hne
        simp only [Memory.read, hne, if_false]
        exact ih hr

/-- A write leaves every other slot alone. -/
theorem Memory.read_write_other (m : Memory) {a b : Nat} (v : Byte) (h : b ≠ a) :
    Memory.read (Memory.write m a v) b = Memory.read m b := by
  induction m with
  | nil => exact Memory.read_putFront_other [] v h
  | cons c rest ih =>
    simp only [Memory.write]
    split
    · exact Memory.read_putFront_other _ v h
    · split
      · rename_i heq
        rw [Memory.read_putFront_other rest v h]
        have hb : b ≠ c.1 := fun e => h (e.trans heq.symm)
        simp [Memory.read, hb]
      · simp only [Memory.read, ih]

theorem Memory.mem_putFront {m : Memory} {a : Nat} {v : Byte} {c : Host.Cell} (h : c ∈ Memory.putFront m a v) :
    (c = (a, v) ∧ v ≠ Config.slotUnwritten) ∨ c ∈ m := by
  unfold Memory.putFront at h
  split at h
  · exact .inr h
  · rename_i hv
    rcases List.mem_cons.mp h with rfl | h
    · exact .inl ⟨rfl, hv⟩
    · exact .inr h

/-- A cell after a write is the one written, not equal to an unlisted slot, or one that stood there before. -/
theorem Memory.mem_write {m : Memory} {a : Nat} {v : Byte} {c : Host.Cell} (h : c ∈ Memory.write m a v) :
    (c = (a, v) ∧ v ≠ Config.slotUnwritten) ∨ c ∈ m := by
  induction m with
  | nil => exact Memory.mem_putFront h
  | cons d rest ih =>
    simp only [Memory.write] at h
    split at h
    · exact Memory.mem_putFront h
    · split at h
      · exact (Memory.mem_putFront h).imp id (by simp +contextual)
      · rcases List.mem_cons.mp h with rfl | h
        · simp
        · exact (ih h).imp id (by simp +contextual)

theorem Memory.pairwise_putFront (m : Memory) (a : Nat) (v : Byte) (h : m.Pairwise (fun c d => c.1 < d.1))
    (hb : ∀ c ∈ m, a < c.1) : (Memory.putFront m a v).Pairwise (fun c d => c.1 < d.1) := by
  unfold Memory.putFront
  split
  · exact h
  · exact List.pairwise_cons.mpr ⟨hb, h⟩

theorem Memory.pairwise_write (m : Memory) (a : Nat) (v : Byte) (h : m.Pairwise (fun c d => c.1 < d.1)) :
    (Memory.write m a v).Pairwise (fun c d => c.1 < d.1) := by
  induction m with
  | nil => exact Memory.pairwise_putFront [] a v h (by simp)
  | cons c rest ih =>
    obtain ⟨hc, hr⟩ := List.pairwise_cons.mp h
    simp only [Memory.write]
    split
    · rename_i hlt
      refine Memory.pairwise_putFront _ a v h fun d hd => ?_
      rcases List.mem_cons.mp hd with rfl | hd
      · exact hlt
      · exact hlt.trans (hc d hd)
    · split
      · rename_i heq
        exact Memory.pairwise_putFront rest a v hr fun d hd => heq ▸ hc d hd
      · refine List.pairwise_cons.mpr ⟨fun d hd => ?_, ih hr⟩
        rcases Memory.mem_write hd with ⟨rfl, -⟩ | hd
        · simp only; omega
        · exact hc d hd

/-- A write keeps the canonical form. -/
theorem Memory.wf_write {n : Nat} (m : Memory) (a : Nat) (v : Byte) (h : m.wf n) (ha : a < n) :
    (Memory.write m a v).wf n := by
  refine ⟨Memory.pairwise_write m a v h.1, fun c hc => ?_⟩
  rcases Memory.mem_write hc with ⟨rfl, hv⟩ | hc
  · exact ⟨hv, ha⟩
  · exact h.2 c hc

/-- The slots at reset are in canonical form. -/
theorem Memory.wf_nil (n : Nat) : Memory.wf n [] := ⟨List.Pairwise.nil, by simp⟩

/-! ## Queues -/

theorem nextIndex_lt {n : Nat} (k : Nat) (h : 0 < n) : nextIndex n k < n := Nat.mod_lt _ h

/-- The next index is the next number, or 0 at the end of the ring (R40). -/
theorem nextIndex_eq {n k : Nat} (h : k < n) : nextIndex n k = if k + 1 = n then 0 else k + 1 := by
  unfold nextIndex
  split
  · simp [*]
  · exact Nat.mod_eq_of_lt (by omega)

/-- The count of a well-formed queue (R41). -/
theorem Queue.count_eq {n : Nat} (q : Queue) (h : q.wf n) :
    q.count n = if q.tail ≤ q.head then q.head - q.tail else q.head + n - q.tail := by
  obtain ⟨-, hh, ht⟩ := h
  unfold Queue.count
  split
  · rw [show q.head + n - q.tail = q.head - q.tail + n by omega, Nat.add_mod_right, Nat.mod_eq_of_lt (by omega)]
  · exact Nat.mod_eq_of_lt (by omega)

/-- Every queue operation keeps the well-formedness. -/
theorem Queue.wf_put {n : Nat} (q : Queue) (v : Byte) (h : q.wf n) : (q.put n v).wf n :=
  ⟨Memory.wf_write q.buf q.head v h.1 h.2.1, nextIndex_lt _ (by have := h.2.1; omega), h.2.2⟩

theorem Queue.wf_drop {n : Nat} (q : Queue) (h : q.wf n) : (q.drop n).wf n :=
  ⟨h.1, h.2.1, nextIndex_lt _ (by have := h.2.1; omega)⟩

theorem Queue.wf_clear {n : Nat} (q : Queue) (h : q.wf n) : q.clear.wf n :=
  ⟨h.1, by have := h.2.1; simp only [Queue.clear]; omega, by have := h.2.1; simp only [Queue.clear]; omega⟩

end Sys2Proof.Machine
end

