-- ==== Sys2Proof/Laws/State.lean ====
section
/-!
SUPPORT. The state under its updates: one lemma per field per update, each true by `rfl`. Every operation on an
instance's registers is a `State.modInst` (the `_eq` lemmas), and `State.modInst` has the lemmas of the fields.
-/

namespace Sys2Proof.Machine

open Sys2Proof

variable (s : State)

/-! ## `State.modInst` -/

section ModInst

variable (i : Inst) (f : InstState → InstState)

@[simp] theorem modInst_P_p : (s.modInst .P f).p = f s.p := rfl
@[simp] theorem modInst_P_x : (s.modInst .P f).x = s.x := rfl
@[simp] theorem modInst_X_p : (s.modInst .X f).p = s.p := rfl
@[simp] theorem modInst_X_x : (s.modInst .X f).x = f s.x := rfl
@[simp] theorem modInst_inst_same : (s.modInst i f).inst i = f (s.inst i) := by cases i <;> rfl
theorem modInst_inst_other {j : Inst} (h : j ≠ i) : (s.modInst i f).inst j = s.inst j := by
  cases i <;> cases j <;> first | rfl | exact absurd rfl h
@[simp] theorem inst_P : s.inst .P = s.p := rfl
@[simp] theorem inst_X : s.inst .X = s.x := rfl
@[simp] theorem modInst_slots : (s.modInst i f).slots = s.slots := by cases i <;> rfl
@[simp] theorem modInst_ackSeen : (s.modInst i f).ackSeen = s.ackSeen := by cases i <;> rfl
@[simp] theorem modInst_own : (s.modInst i f).own = s.own := by cases i <;> rfl
@[simp] theorem modInst_ext : (s.modInst i f).ext = s.ext := by cases i <;> rfl
@[simp] theorem modInst_tmr : (s.modInst i f).tmr = s.tmr := by cases i <;> rfl
@[simp] theorem modInst_cfg : (s.modInst i f).cfg = s.cfg := by cases i <;> rfl
@[simp] theorem modInst_now : (s.modInst i f).now = s.now := by cases i <;> rfl
@[simp] theorem modInst_ret : (s.modInst i f).ret = s.ret := by cases i <;> rfl
@[simp] theorem modInst_refused : (s.modInst i f).refused = s.refused := by cases i <;> rfl
@[simp] theorem modInst_events : (s.modInst i f).events = s.events := by cases i <;> rfl
@[simp] theorem modInst_script : (s.modInst i f).script = s.script := by cases i <;> rfl

end ModInst

/-! ## The instance-register operations as `State.modInst` -/

section InstOps

variable (i : Inst)

@[simp] theorem setRole_eq (r : Role) : setRole i r s = s.modInst i (fun v => { v with role := r }) := rfl
@[simp] theorem setSt_eq (c : St) : setSt i c s = s.modInst i (fun v => { v with st := c }) := rfl
@[simp] theorem setHold_eq (n : Byte) : setHold i n s = s.modInst i (fun v => { v with hold := n }) := rfl
@[simp] theorem frameStart_eq (a : Byte) :
    frameStart i a s = s.modInst i (fun v => { v with acc := a, bitcnt := 0, ones := 0 }) := rfl
@[simp] theorem frameReset_eq :
    frameReset i s = s.modInst i (fun v => { v with acc := 0, bitcnt := 0, ones := 0 }) := rfl
@[simp] theorem setEdge_eq (m : EdgeMode) :
    setEdge i m s = s.modInst i (fun v => { v with edgeMode := m, edgePend := false }) := rfl
@[simp] theorem takeEdge_eq : takeEdge i s = s.modInst i (fun v => { v with edgePend := false }) := rfl
@[simp] theorem setQueue_eq (d : Dir) (q : Queue) :
    setQueue i d q s = s.modInst i (fun v => v.setQueue d q) := rfl
@[simp] theorem clear_eq (d : Dir) :
    clear i d s = s.modInst i (fun v => v.setQueue d ((s.inst i).queue d).clear) := rfl
@[simp] theorem countBit_eq (a : Byte) (b : Bool) :
    countBit i a b s = s.modInst i
      (fun v => { v with acc := a, ones := if b then v.ones + 1 else v.ones, bitcnt := v.bitcnt + 1 }) := rfl
@[simp] theorem setQueue_tx (v : InstState) (q : Queue) : v.setQueue .tx q = { v with txq := q } := rfl
@[simp] theorem setQueue_rx (v : InstState) (q : Queue) : v.setQueue .rx q = { v with rxq := q } := rfl
@[simp] theorem queue_tx (v : InstState) : v.queue .tx = v.txq := rfl
@[simp] theorem queue_rx (v : InstState) : v.queue .rx = v.rxq := rfl

end InstOps

/-! ## The other updates -/

section SetAckSeen

variable (b : Bool)

@[simp] theorem setAckSeen_p : (setAckSeen b s).p = s.p := rfl
@[simp] theorem setAckSeen_x : (setAckSeen b s).x = s.x := rfl
@[simp] theorem setAckSeen_slots : (setAckSeen b s).slots = s.slots := rfl
@[simp] theorem setAckSeen_ackSeen : (setAckSeen b s).ackSeen = b := rfl
@[simp] theorem setAckSeen_own : (setAckSeen b s).own = s.own := rfl
@[simp] theorem setAckSeen_ext : (setAckSeen b s).ext = s.ext := rfl
@[simp] theorem setAckSeen_tmr : (setAckSeen b s).tmr = s.tmr := rfl
@[simp] theorem setAckSeen_cfg : (setAckSeen b s).cfg = s.cfg := rfl
@[simp] theorem setAckSeen_now : (setAckSeen b s).now = s.now := rfl
@[simp] theorem setAckSeen_ret : (setAckSeen b s).ret = s.ret := rfl
@[simp] theorem setAckSeen_refused : (setAckSeen b s).refused = s.refused := rfl
@[simp] theorem setAckSeen_events : (setAckSeen b s).events = s.events := rfl
@[simp] theorem setAckSeen_script : (setAckSeen b s).script = s.script := rfl
@[simp] theorem setAckSeen_inst (j : Inst) : (setAckSeen b s).inst j = s.inst j := by cases j <;> rfl

end SetAckSeen

section SetOwn

variable (l : Line) (d : Drive)

@[simp] theorem setOwn_p : (setOwn l d s).p = s.p := rfl
@[simp] theorem setOwn_x : (setOwn l d s).x = s.x := rfl
@[simp] theorem setOwn_slots : (setOwn l d s).slots = s.slots := rfl
@[simp] theorem setOwn_ackSeen : (setOwn l d s).ackSeen = s.ackSeen := rfl
@[simp] theorem setOwn_own : (setOwn l d s).own = s.own.set l d := rfl
@[simp] theorem setOwn_ext : (setOwn l d s).ext = s.ext := rfl
@[simp] theorem setOwn_tmr : (setOwn l d s).tmr = s.tmr := rfl
@[simp] theorem setOwn_cfg : (setOwn l d s).cfg = s.cfg := rfl
@[simp] theorem setOwn_now : (setOwn l d s).now = s.now := rfl
@[simp] theorem setOwn_ret : (setOwn l d s).ret = s.ret := rfl
@[simp] theorem setOwn_refused : (setOwn l d s).refused = s.refused := rfl
@[simp] theorem setOwn_events : (setOwn l d s).events = s.events := rfl
@[simp] theorem setOwn_script : (setOwn l d s).script = s.script := rfl
@[simp] theorem setOwn_inst (j : Inst) : (setOwn l d s).inst j = s.inst j := by cases j <;> rfl

end SetOwn

section SetExt

variable (l : Line) (d : Drive)

@[simp] theorem setExt_p : (setExt l d s).p = s.p := rfl
@[simp] theorem setExt_x : (setExt l d s).x = s.x := rfl
@[simp] theorem setExt_slots : (setExt l d s).slots = s.slots := rfl
@[simp] theorem setExt_ackSeen : (setExt l d s).ackSeen = s.ackSeen := rfl
@[simp] theorem setExt_own : (setExt l d s).own = s.own := rfl
@[simp] theorem setExt_ext : (setExt l d s).ext = s.ext.set l d := rfl
@[simp] theorem setExt_tmr : (setExt l d s).tmr = s.tmr := rfl
@[simp] theorem setExt_cfg : (setExt l d s).cfg = s.cfg := rfl
@[simp] theorem setExt_now : (setExt l d s).now = s.now := rfl
@[simp] theorem setExt_ret : (setExt l d s).ret = s.ret := rfl
@[simp] theorem setExt_refused : (setExt l d s).refused = s.refused := rfl
@[simp] theorem setExt_events : (setExt l d s).events = s.events := rfl
@[simp] theorem setExt_script : (setExt l d s).script = s.script := rfl
@[simp] theorem setExt_inst (j : Inst) : (setExt l d s).inst j = s.inst j := by cases j <;> rfl

end SetExt

section SetCfg

variable (r : CfgReg) (v : Byte)

@[simp] theorem setCfg_p : (setCfg r v s).p = s.p := rfl
@[simp] theorem setCfg_x : (setCfg r v s).x = s.x := rfl
@[simp] theorem setCfg_slots : (setCfg r v s).slots = s.slots := rfl
@[simp] theorem setCfg_ackSeen : (setCfg r v s).ackSeen = s.ackSeen := rfl
@[simp] theorem setCfg_own : (setCfg r v s).own = s.own := rfl
@[simp] theorem setCfg_ext : (setCfg r v s).ext = s.ext := rfl
@[simp] theorem setCfg_tmr : (setCfg r v s).tmr = s.tmr := rfl
@[simp] theorem setCfg_cfg : (setCfg r v s).cfg = s.cfg.set r v := rfl
@[simp] theorem setCfg_now : (setCfg r v s).now = s.now := rfl
@[simp] theorem setCfg_ret : (setCfg r v s).ret = s.ret := rfl
@[simp] theorem setCfg_refused : (setCfg r v s).refused = s.refused := rfl
@[simp] theorem setCfg_events : (setCfg r v s).events = s.events := rfl
@[simp] theorem setCfg_script : (setCfg r v s).script = s.script := rfl
@[simp] theorem setCfg_inst (j : Inst) : (setCfg r v s).inst j = s.inst j := by cases j <;> rfl

end SetCfg

section Arm

variable (c : Owner) (d : Byte)

@[simp] theorem arm_p : (arm c d s).p = s.p := rfl
@[simp] theorem arm_x : (arm c d s).x = s.x := rfl
@[simp] theorem arm_slots : (arm c d s).slots = s.slots := rfl
@[simp] theorem arm_ackSeen : (arm c d s).ackSeen = s.ackSeen := rfl
@[simp] theorem arm_own : (arm c d s).own = s.own := rfl
@[simp] theorem arm_ext : (arm c d s).ext = s.ext := rfl
@[simp] theorem arm_tmr : (arm c d s).tmr = { run := true, cnt := d, pend := false, owner := c } := rfl
@[simp] theorem arm_cfg : (arm c d s).cfg = s.cfg := rfl
@[simp] theorem arm_now : (arm c d s).now = s.now := rfl
@[simp] theorem arm_ret : (arm c d s).ret = s.ret := rfl
@[simp] theorem arm_refused : (arm c d s).refused = s.refused := rfl
@[simp] theorem arm_events : (arm c d s).events = s.events := rfl
@[simp] theorem arm_script : (arm c d s).script = s.script := rfl
@[simp] theorem arm_inst (j : Inst) : (arm c d s).inst j = s.inst j := by cases j <;> rfl

end Arm

section StopTimer

@[simp] theorem stopTimer_p : (stopTimer s).p = s.p := rfl
@[simp] theorem stopTimer_x : (stopTimer s).x = s.x := rfl
@[simp] theorem stopTimer_slots : (stopTimer s).slots = s.slots := rfl
@[simp] theorem stopTimer_ackSeen : (stopTimer s).ackSeen = s.ackSeen := rfl
@[simp] theorem stopTimer_own : (stopTimer s).own = s.own := rfl
@[simp] theorem stopTimer_ext : (stopTimer s).ext = s.ext := rfl
@[simp] theorem stopTimer_tmr : (stopTimer s).tmr = { s.tmr with run := false, pend := false, owner := .none } := rfl
@[simp] theorem stopTimer_cfg : (stopTimer s).cfg = s.cfg := rfl
@[simp] theorem stopTimer_now : (stopTimer s).now = s.now := rfl
@[simp] theorem stopTimer_ret : (stopTimer s).ret = s.ret := rfl
@[simp] theorem stopTimer_refused : (stopTimer s).refused = s.refused := rfl
@[simp] theorem stopTimer_events : (stopTimer s).events = s.events := rfl
@[simp] theorem stopTimer_script : (stopTimer s).script = s.script := rfl
@[simp] theorem stopTimer_inst (j : Inst) : (stopTimer s).inst j = s.inst j := by cases j <;> rfl

end StopTimer

section TakeTimer

@[simp] theorem takeTimer_p : (takeTimer s).p = s.p := rfl
@[simp] theorem takeTimer_x : (takeTimer s).x = s.x := rfl
@[simp] theorem takeTimer_slots : (takeTimer s).slots = s.slots := rfl
@[simp] theorem takeTimer_ackSeen : (takeTimer s).ackSeen = s.ackSeen := rfl
@[simp] theorem takeTimer_own : (takeTimer s).own = s.own := rfl
@[simp] theorem takeTimer_ext : (takeTimer s).ext = s.ext := rfl
@[simp] theorem takeTimer_tmr : (takeTimer s).tmr = { s.tmr with pend := false, owner := .none } := rfl
@[simp] theorem takeTimer_cfg : (takeTimer s).cfg = s.cfg := rfl
@[simp] theorem takeTimer_now : (takeTimer s).now = s.now := rfl
@[simp] theorem takeTimer_ret : (takeTimer s).ret = s.ret := rfl
@[simp] theorem takeTimer_refused : (takeTimer s).refused = s.refused := rfl
@[simp] theorem takeTimer_events : (takeTimer s).events = s.events := rfl
@[simp] theorem takeTimer_script : (takeTimer s).script = s.script := rfl
@[simp] theorem takeTimer_inst (j : Inst) : (takeTimer s).inst j = s.inst j := by cases j <;> rfl

end TakeTimer

section Raise

variable (e : ErrorEvent)

@[simp] theorem raise_p : (raise e s).p = s.p := rfl
@[simp] theorem raise_x : (raise e s).x = s.x := rfl
@[simp] theorem raise_slots : (raise e s).slots = s.slots := rfl
@[simp] theorem raise_ackSeen : (raise e s).ackSeen = s.ackSeen := rfl
@[simp] theorem raise_own : (raise e s).own = s.own := rfl
@[simp] theorem raise_ext : (raise e s).ext = s.ext := rfl
@[simp] theorem raise_tmr : (raise e s).tmr = s.tmr := rfl
@[simp] theorem raise_cfg : (raise e s).cfg = s.cfg := rfl
@[simp] theorem raise_now : (raise e s).now = s.now := rfl
@[simp] theorem raise_ret : (raise e s).ret = s.ret := rfl
@[simp] theorem raise_refused : (raise e s).refused = s.refused := rfl
@[simp] theorem raise_events : (raise e s).events = s.events ++ [e] := rfl
@[simp] theorem raise_script : (raise e s).script = s.script := rfl
@[simp] theorem raise_inst (j : Inst) : (raise e s).inst j = s.inst j := by cases j <;> rfl

end Raise

section Answer

variable (v : Byte)

@[simp] theorem answer_p : (answer v s).p = s.p := rfl
@[simp] theorem answer_x : (answer v s).x = s.x := rfl
@[simp] theorem answer_slots : (answer v s).slots = s.slots := rfl
@[simp] theorem answer_ackSeen : (answer v s).ackSeen = s.ackSeen := rfl
@[simp] theorem answer_own : (answer v s).own = s.own := rfl
@[simp] theorem answer_ext : (answer v s).ext = s.ext := rfl
@[simp] theorem answer_tmr : (answer v s).tmr = s.tmr := rfl
@[simp] theorem answer_cfg : (answer v s).cfg = s.cfg := rfl
@[simp] theorem answer_now : (answer v s).now = s.now := rfl
@[simp] theorem answer_ret : (answer v s).ret = v := rfl
@[simp] theorem answer_refused : (answer v s).refused = false := rfl
@[simp] theorem answer_events : (answer v s).events = s.events := rfl
@[simp] theorem answer_script : (answer v s).script = s.script := rfl
@[simp] theorem answer_inst (j : Inst) : (answer v s).inst j = s.inst j := by cases j <;> rfl

end Answer

section Refuse

@[simp] theorem refuse_p : (refuse s).p = s.p := rfl
@[simp] theorem refuse_x : (refuse s).x = s.x := rfl
@[simp] theorem refuse_slots : (refuse s).slots = s.slots := rfl
@[simp] theorem refuse_ackSeen : (refuse s).ackSeen = s.ackSeen := rfl
@[simp] theorem refuse_own : (refuse s).own = s.own := rfl
@[simp] theorem refuse_ext : (refuse s).ext = s.ext := rfl
@[simp] theorem refuse_tmr : (refuse s).tmr = s.tmr := rfl
@[simp] theorem refuse_cfg : (refuse s).cfg = s.cfg := rfl
@[simp] theorem refuse_now : (refuse s).now = s.now := rfl
@[simp] theorem refuse_ret : (refuse s).ret = 0 := rfl
@[simp] theorem refuse_refused : (refuse s).refused = true := rfl
@[simp] theorem refuse_events : (refuse s).events = s.events := rfl
@[simp] theorem refuse_script : (refuse s).script = s.script := rfl
@[simp] theorem refuse_inst (j : Inst) : (refuse s).inst j = s.inst j := by cases j <;> rfl

end Refuse

/-! ## Lines, the timer of an instance, and the frame start of a send -/

@[simp] theorem assertLine_eq (l : Line) : assertLine l s = setOwn l .low s := rfl
@[simp] theorem releaseLine_eq (l : Line) : releaseLine l s = setOwn l .rel s := rfl
@[simp] theorem driveLine_eq (l : Line) (b : Bool) : driveLine l b s = setOwn l (if b then .rel else .low) s := by
  cases b <;> rfl
@[simp] theorem armCfg_eq (i : Inst) (r : CfgReg) : armCfg i r s = arm (ownerOf i) (s.cfg.get r) s := rfl
@[simp] theorem frameFromTx_eq (i : Inst) :
    frameFromTx i s = s.modInst i (fun v => { v with
      txq := (s.inst i).txq.drop s.slots, acc := (s.inst i).txq.front, bitcnt := 0, ones := 0 }) := by
  cases i <;> rfl

@[simp] theorem LineBank.get_set_same (b : LineBank) (l : Line) (d : Drive) : (b.set l d).get l = d := by
  cases l <;> rfl

theorem LineBank.get_set_other (b : LineBank) (d : Drive) {l m : Line} (h : m ≠ l) : (b.set l d).get m = b.get m := by
  cases l <;> cases m <;> first | rfl | exact absurd rfl h

@[simp] theorem CfgBank.get_set_same (c : CfgBank) (r : CfgReg) (v : Byte) : (c.set r v).get r = v := by
  cases r <;> rfl

theorem CfgBank.get_set_other (c : CfgBank) (v : Byte) {r t : CfgReg} (h : t ≠ r) : (c.set r v).get t = c.get t := by
  cases r <;> cases t <;> first | rfl | exact absurd rfl h

end Sys2Proof.Machine
end

