-- ==== Sys2Proof/Laws/Ops.lean ====
section
/-!
SUPPORT. One lemma per shared operation: everything the operation does, for later proofs to cite instead of unfolding
it.
-/

namespace Sys2Proof.Machine

open Sys2Proof

variable (s : State)

/-! ## Levels -/

@[simp] theorem level_modInst (l : Line) (i : Inst) (f : InstState → InstState) :
    level l (s.modInst i f) = level l s := by simp [level]
@[simp] theorem level_arm (l : Line) (c : Owner) (d : Byte) : level l (arm c d s) = level l s := rfl
@[simp] theorem level_stopTimer (l : Line) : level l (stopTimer s) = level l s := rfl
@[simp] theorem level_takeTimer (l : Line) : level l (takeTimer s) = level l s := rfl
@[simp] theorem level_raise (l : Line) (e : ErrorEvent) : level l (raise e s) = level l s := rfl
@[simp] theorem level_setAckSeen (l : Line) (b : Bool) : level l (setAckSeen b s) = level l s := rfl
@[simp] theorem level_setCfg (l : Line) (r : CfgReg) (v : Byte) : level l (setCfg r v s) = level l s := rfl
@[simp] theorem level_answer (l : Line) (v : Byte) : level l (answer v s) = level l s := rfl
@[simp] theorem level_refuse (l : Line) : level l (refuse s) = level l s := rfl
@[simp] theorem level_setOwn_low (l : Line) : level l (setOwn l .low s) = false := by simp [level]
@[simp] theorem level_setOwn_rel (l : Line) : level l (setOwn l .rel s) = (s.ext.get l == .rel) := by simp [level]
theorem level_setOwn_other {l m : Line} (d : Drive) (h : m ≠ l) : level m (setOwn l d s) = level m s := by
  simp [level, LineBank.get_set_other _ _ h]
theorem level_setExt_other {l m : Line} (d : Drive) (h : m ≠ l) : level m (setExt l d s) = level m s := by
  simp [level, LineBank.get_set_other _ _ h]

/-! ## Timer -/

/-- `tmr_off()` (R92): one change of the timer. -/
theorem tmrOff_eq (c : Owner) : tmrOff c s = { s with
    tmr := if s.tmr.owner = c then { s.tmr with run := false, pend := false, owner := .none } else s.tmr } := by
  unfold tmrOff
  split <;> rfl

@[simp] theorem level_tmrOff (l : Line) (c : Owner) : level l (tmrOff c s) = level l s := by rw [tmrOff_eq]; rfl

/-! ## Queues -/

/-- `push` on a full queue (R44). -/
theorem push_full (i : Inst) (d : Dir) (v : Byte) (h : ((s.inst i).queue d).full s.slots = true) :
    push i d v s = raise (.overflow i d) s := by
  simp [push, h]

/-- `push` on a queue with room (R42). -/
theorem push_room (i : Inst) (d : Dir) (v : Byte) (h : ((s.inst i).queue d).full s.slots = false) :
    push i d v s = s.modInst i (fun w => w.setQueue d (((s.inst i).queue d).put s.slots v)) := by
  simp [push, h]

@[simp] theorem level_push (l : Line) (i : Inst) (d : Dir) (v : Byte) : level l (push i d v s) = level l s := by
  cases h : ((s.inst i).queue d).full s.slots
  · rw [push_room s i d v h, level_modInst]
  · rw [push_full s i d v h, level_raise]

/-! ## Bits -/

/-- `put_bit()` (R63). -/
theorem putBit_eq (i : Inst) : putBit i s
    = (setOwn (dataOf i) (if (s.inst i).acc.getLsbD 0 then .rel else .low) s).modInst i (fun v => { v with
        acc := v.acc >>> 1, ones := v.ones + (if v.acc.getLsbD 0 then 1 else 0), bitcnt := v.bitcnt + 1 }) := by
  unfold putBit
  cases h : (s.inst i).acc.getLsbD 0 <;> cases i <;>
    simp_all [State.inst, State.modInst, countBit, driveLine, assertLine, releaseLine, setOwn]

/-- `get_bit()` (R63). -/
theorem getBit_eq (i : Inst) : getBit i s
    = s.modInst i (fun v => { v with
        acc := (v.acc >>> 1) ||| (if level (dataOf i) s then 0x80 else 0),
        ones := v.ones + (if level (dataOf i) s then 1 else 0), bitcnt := v.bitcnt + 1 }) := by
  unfold getBit
  cases h : level (dataOf i) s <;> cases i <;>
    simp [State.inst, State.modInst, countBit, shiftIn, byteOfBit]

/-! ## Edge detection -/

@[simp] theorem edgeSeen_same (m : EdgeMode) (b : Bool) : edgeSeen m b b = false := by
  cases m <;> cases b <;> rfl

@[simp] theorem edgeSeen_off (a b : Bool) : edgeSeen .off a b = false := rfl

/-- R99 sets nothing where no CLOCK level shows its detector's edge. -/
theorem detectEdges_of_unseen (before : State)
    (h : ∀ i, edgeSeen (s.inst i).edgeMode (level (clkOf i) before) (level (clkOf i) s) = false) :
    detectEdges before s = s := by
  have hp := h .P
  have hx := h .X
  simp only [inst_P, inst_X] at hp hx
  simp [detectEdges, detectEdge, hp, hx]

/-- R99 sets nothing where no CLOCK level has changed. -/
theorem detectEdges_of_level (before : State) (h : ∀ i, level (clkOf i) s = level (clkOf i) before) :
    detectEdges before s = s :=
  detectEdges_of_unseen s before fun i => by rw [h i, edgeSeen_same]

/-! ## Steps -/

/-- An enabled step of the foreground or the environment. -/
theorem asStep_enabled (body : State → State) (h : deliverable s = none) :
    asStep body s = .next (detectEdges s (body s)) := by
  simp [asStep, h]

/-- A step of the foreground or the environment that moves no CLOCK level. -/
theorem asStep_quiet (body : State → State) {t : State} (h : deliverable s = none) (hb : body s = t)
    (hl : ∀ i, level (clkOf i) t = level (clkOf i) s) : asStep body s = .next t := by
  rw [asStep_enabled s body h, hb, detectEdges_of_level t s hl]

/-- While a notification is deliverable the foreground and the environment have no step (R6). -/
theorem asStep_disabled (body : State → State) (h : deliverable s ≠ none) : asStep body s = .refused .notEnabled := by
  simp [asStep, h]

/-- A transition in its state (R12). -/
theorem transition_enabled {i : Inst} {r : Role} {c : St} (body : State → State) (hr : (s.inst i).role = r)
    (hc : (s.inst i).st = c) : transition i r c body s = .next (body s) := by
  simp [transition, hr, hc]

/-- A transition outside its state (R12). -/
theorem transition_disabled {i : Inst} {r : Role} {c : St} (body : State → State)
    (h : ¬((s.inst i).role = r ∧ (s.inst i).st = c)) : transition i r c body s = .refused .notEnabled := by
  simp [transition, h]

/-! ## Dispatch keys -/

/-- The key of a triple selects the triple's transition (R69). -/
theorem decodeKey_dispatchKey (e : Engine) (c : St) (v : Ev) : decodeKey (dispatchKey e c v) = transitionOf e c v := by
  cases e <;> cases c <;> cases v <;> rfl

/-- The transition an instance with an engine selects. -/
theorem selectTransition_eq (i : Inst) (ev : Ev) {e : Engine} (h : engineOf i (s.inst i).role = some e) :
    selectTransition i ev s = transitionOf e (s.inst i).st ev := by
  simp [selectTransition, h, decodeKey_dispatchKey]

/-! ## What is deliverable -/

theorem deliverable_none_iff :
    deliverable s = none ↔ edgeDeliverable .P s = false ∧ edgeDeliverable .X s = false ∧ tmrDeliverable s = false := by
  cases hp : edgeDeliverable .P s <;> cases hx : edgeDeliverable .X s <;> cases ht : tmrDeliverable s <;>
    simp [deliverable, hp, hx, ht]

theorem deliverable_timer (h : deliverable s = some .timer) : tmrDeliverable s = true := by
  unfold deliverable at h
  split at h <;> [cases h; (split at h <;> [cases h; (split at h <;> [assumption; cases h])])]

theorem deliverable_edge {i : Inst} (h : deliverable s = some (.edge i)) : edgeDeliverable i s = true := by
  unfold deliverable at h
  split at h
  · cases h; assumption
  · split at h
    · cases h; assumption
    · split at h <;> cases h

end Sys2Proof.Machine
end

