-- ==== Sys2Proof/Laws/PerInstr.lean ====
section
/-!
SUPPORT. The family `TableRow`: the words of every operation carry the fixed bits of its row of spec/opcode_table.json
(`match` under `mask`, the whole key, the fixed symbols of a frame). `row` is written from the table's columns alone,
`encode` from the spec's encoding rules.
-/

namespace Sys2Proof.Laws.TableRow

open Sys2Proof

/-- The fixed part of a row: `match` and `mask` of a command or event word, a dispatch key, or the symbols of a frame,
`none` where the frame's symbol is data or parity. -/
inductive Row where
  | command (value mask : Word16)
  | event (value mask : Word16)
  | key (value : Byte)
  | frame (symbols : List (Option Bool))
  deriving DecidableEq, Repr

/-- The row of an operation, column by column from spec/opcode_table.json (R66, R67, R69, R60 to R62). -/
def row : Instr → Row
  | .lineAssert _ => .command 0x0000 0xFF00
  | .lineRelease _ => .command 0x0100 0xFF00
  | .lineRead _ => .command 0x0200 0xFF00
  | .tmrArm _ => .command 0x1000 0xFF00
  | .tmrDisable => .command 0x1100 0xFFFF
  | .tmrStatus => .command 0x1200 0xFFFF
  | .edgeSet _ _ => .command 0x2000 0xFFF8
  | .edgeStatus _ => .command 0x2100 0xFFFE
  | .pInit _ => .command 0x3000 0xFF00
  | .pPut _ => .command 0x3100 0xFF00
  | .pGet => .command 0x3200 0xFFFF
  | .pRxcount => .command 0x3300 0xFFFF
  | .pTxcount => .command 0x3400 0xFFFF
  | .pReset => .command 0x3500 0xFFFF
  | .pState => .command 0x3600 0xFFFF
  | .xInit _ => .command 0x4000 0xFF00
  | .xPut _ => .command 0x4100 0xFF00
  | .xGet => .command 0x4200 0xFFFF
  | .xRxcount => .command 0x4300 0xFFFF
  | .xTxcount => .command 0x4400 0xFFFF
  | .xReset => .command 0x4500 0xFFFF
  | .xState => .command 0x4600 0xFFFF
  | .xHreset => .command 0x4700 0xFFFF
  | .cfgWr _ _ => .command 0x5000 0xF000
  | .cfgRd _ => .command 0x6000 0xF0FF
  | .envTick => .event 0xF000 0xFFFF
  | .envLow _ => .event 0xF100 0xFFF0
  | .envRel _ => .event 0xF200 0xFFF0
  | .irqEdge _ => .event 0xF300 0xFFFE
  | .irqTmr => .event 0xF400 0xFFFF
  | .p2hIdleEdge => .key 0x00
  | .p2hPrepStartTmr => .key 0x05
  | .p2hSendStartEdge => .key 0x06
  | .p2hSendBitEdge => .key 0x0A
  | .p2hSendBitTmr => .key 0x0B
  | .p2hSendParityEdge => .key 0x0E
  | .p2hSendParityTmr => .key 0x0F
  | .p2hSendStopEdge => .key 0x12
  | .p2hSendStopTmr => .key 0x13
  | .p2hGetBitEdge => .key 0x1C
  | .p2hGetBitTmr => .key 0x1D
  | .p2hGetParityEdge => .key 0x1E
  | .p2hGetParityTmr => .key 0x1F
  | .p2hWaitStopEdge => .key 0x20
  | .p2hWaitStopTmr => .key 0x21
  | .p2hGetAckTmr => .key 0x25
  | .p2dIdleEdge => .key 0x40
  | .p2dHostInhibitEdge => .key 0x42
  | .p2dPrepStartTmr => .key 0x45
  | .p2dSendStartTmr => .key 0x47
  | .p2dPrepBitTmr => .key 0x49
  | .p2dSendBitTmr => .key 0x4B
  | .p2dPrepParityTmr => .key 0x4D
  | .p2dSendParityTmr => .key 0x4F
  | .p2dPrepStopTmr => .key 0x51
  | .p2dSendStopTmr => .key 0x53
  | .p2dHoldoffTmr => .key 0x55
  | .p2dWaitStartTmr => .key 0x57
  | .p2dGetStartTmr => .key 0x59
  | .p2dWaitBitTmr => .key 0x5B
  | .p2dGetBitTmr => .key 0x5D
  | .p2dGetParityTmr => .key 0x5F
  | .p2dWaitStopTmr => .key 0x61
  | .p2dWaitAckTmr => .key 0x63
  | .p2dGetAckTmr => .key 0x65
  | .xthIdleEdge => .key 0x80
  | .xthGetBitEdge => .key 0x9C
  | .xthGetBitTmr => .key 0x9D
  | .xthResetTmr => .key 0xA7
  | .xtdIdleEdge => .key 0xC0
  | .xtdHostInhibitTmr => .key 0xC3
  | .xtdSendStartTmr => .key 0xC7
  | .xtdPrepBitTmr => .key 0xC9
  | .xtdSendBitTmr => .key 0xCB
  | .xtdHoldoffTmr => .key 0xD5
  | .framePs2D2h _ _ => .frame [some false, none, none, none, none, none, none, none, none, none, some true]
  | .framePs2H2d _ _ => .frame [some false, none, none, none, none, none, none, none, none, none, some true, some false]
  | .frameXtD2h _ _ => .frame [none, none, none, none, none, none, none, none]

/-- A symbol agrees with what the row fixes of it. -/
def agrees : Option Bool → Bool → Prop
  | none, _ => True
  | some a, b => a = b

/-- The code has the fixed part of the row. -/
def Row.fits : Row → Code → Prop
  | .command v m, .command w => w &&& m = v
  | .event v m, .event w => w &&& m = v
  | .key v, .key k => k = v
  | .frame p, .frame _ symbols _ => List.Forall₂ agrees p symbols
  | _, _ => False

/-- The words of the operation carry the fixed bits of its row. -/
def Statement (i : Instr) : Prop := (row i).fits (encode i)

theorem lineAssert (l : Byte) : Statement (.lineAssert l) := by
  simp only [Statement, row, encode, Row.fits, commandWord]
  revert l
  decide
theorem lineRelease (l : Byte) : Statement (.lineRelease l) := by
  simp only [Statement, row, encode, Row.fits, commandWord]
  revert l
  decide
theorem lineRead (l : Byte) : Statement (.lineRead l) := by
  simp only [Statement, row, encode, Row.fits, commandWord]
  revert l
  decide
theorem tmrArm (d : Byte) : Statement (.tmrArm d) := by
  simp only [Statement, row, encode, Row.fits, commandWord]
  revert d
  decide
theorem tmrDisable : Statement (.tmrDisable) := by simp only [Statement, row, encode, Row.fits, commandWord]; decide
theorem tmrStatus : Statement (.tmrStatus) := by simp only [Statement, row, encode, Row.fits, commandWord]; decide
theorem edgeSet (i : Inst) (m : BitVec 2) : Statement (.edgeSet i m) := by
  simp only [Statement, row, encode, Row.fits, commandWord]
  cases i <;> revert m <;> decide
theorem edgeStatus (i : Inst) : Statement (.edgeStatus i) := by
  simp only [Statement, row, encode, Row.fits, commandWord]
  cases i <;> decide
theorem pInit (rr : Byte) : Statement (.pInit rr) := by
  simp only [Statement, row, encode, Row.fits, commandWord]
  revert rr
  decide
theorem pPut (b : Byte) : Statement (.pPut b) := by
  simp only [Statement, row, encode, Row.fits, commandWord]
  revert b
  decide
theorem pGet : Statement (.pGet) := by simp only [Statement, row, encode, Row.fits, commandWord]; decide
theorem pRxcount : Statement (.pRxcount) := by simp only [Statement, row, encode, Row.fits, commandWord]; decide
theorem pTxcount : Statement (.pTxcount) := by simp only [Statement, row, encode, Row.fits, commandWord]; decide
theorem pReset : Statement (.pReset) := by simp only [Statement, row, encode, Row.fits, commandWord]; decide
theorem pState : Statement (.pState) := by simp only [Statement, row, encode, Row.fits, commandWord]; decide
theorem xInit (rr : Byte) : Statement (.xInit rr) := by
  simp only [Statement, row, encode, Row.fits, commandWord]
  revert rr
  decide
theorem xPut (b : Byte) : Statement (.xPut b) := by
  simp only [Statement, row, encode, Row.fits, commandWord]
  revert b
  decide
theorem xGet : Statement (.xGet) := by simp only [Statement, row, encode, Row.fits, commandWord]; decide
theorem xRxcount : Statement (.xRxcount) := by simp only [Statement, row, encode, Row.fits, commandWord]; decide
theorem xTxcount : Statement (.xTxcount) := by simp only [Statement, row, encode, Row.fits, commandWord]; decide
theorem xReset : Statement (.xReset) := by simp only [Statement, row, encode, Row.fits, commandWord]; decide
theorem xState : Statement (.xState) := by simp only [Statement, row, encode, Row.fits, commandWord]; decide
theorem xHreset : Statement (.xHreset) := by simp only [Statement, row, encode, Row.fits, commandWord]; decide
theorem cfgWr (r : BitVec 4) (v : Byte) : Statement (.cfgWr r v) := by
  simp only [Statement, row, encode, Row.fits]
  revert v
  revert r
  decide
theorem cfgRd (r : BitVec 4) : Statement (.cfgRd r) := by
  simp only [Statement, row, encode, Row.fits]
  revert r
  decide
theorem envTick : Statement (.envTick) := by simp only [Statement, row, encode, Row.fits]; decide
theorem envLow (l : BitVec 4) : Statement (.envLow l) := by
  simp only [Statement, row, encode, Row.fits]
  revert l
  decide
theorem envRel (l : BitVec 4) : Statement (.envRel l) := by
  simp only [Statement, row, encode, Row.fits]
  revert l
  decide
theorem irqEdge (i : Inst) : Statement (.irqEdge i) := by
  simp only [Statement, row, encode, Row.fits]
  cases i <;> decide
theorem irqTmr : Statement (.irqTmr) := by simp only [Statement, row, encode, Row.fits]; decide
theorem p2hIdleEdge : Statement (.p2hIdleEdge) := rfl
theorem p2hPrepStartTmr : Statement (.p2hPrepStartTmr) := rfl
theorem p2hSendStartEdge : Statement (.p2hSendStartEdge) := rfl
theorem p2hSendBitEdge : Statement (.p2hSendBitEdge) := rfl
theorem p2hSendBitTmr : Statement (.p2hSendBitTmr) := rfl
theorem p2hSendParityEdge : Statement (.p2hSendParityEdge) := rfl
theorem p2hSendParityTmr : Statement (.p2hSendParityTmr) := rfl
theorem p2hSendStopEdge : Statement (.p2hSendStopEdge) := rfl
theorem p2hSendStopTmr : Statement (.p2hSendStopTmr) := rfl
theorem p2hGetBitEdge : Statement (.p2hGetBitEdge) := rfl
theorem p2hGetBitTmr : Statement (.p2hGetBitTmr) := rfl
theorem p2hGetParityEdge : Statement (.p2hGetParityEdge) := rfl
theorem p2hGetParityTmr : Statement (.p2hGetParityTmr) := rfl
theorem p2hWaitStopEdge : Statement (.p2hWaitStopEdge) := rfl
theorem p2hWaitStopTmr : Statement (.p2hWaitStopTmr) := rfl
theorem p2hGetAckTmr : Statement (.p2hGetAckTmr) := rfl
theorem p2dIdleEdge : Statement (.p2dIdleEdge) := rfl
theorem p2dHostInhibitEdge : Statement (.p2dHostInhibitEdge) := rfl
theorem p2dPrepStartTmr : Statement (.p2dPrepStartTmr) := rfl
theorem p2dSendStartTmr : Statement (.p2dSendStartTmr) := rfl
theorem p2dPrepBitTmr : Statement (.p2dPrepBitTmr) := rfl
theorem p2dSendBitTmr : Statement (.p2dSendBitTmr) := rfl
theorem p2dPrepParityTmr : Statement (.p2dPrepParityTmr) := rfl
theorem p2dSendParityTmr : Statement (.p2dSendParityTmr) := rfl
theorem p2dPrepStopTmr : Statement (.p2dPrepStopTmr) := rfl
theorem p2dSendStopTmr : Statement (.p2dSendStopTmr) := rfl
theorem p2dHoldoffTmr : Statement (.p2dHoldoffTmr) := rfl
theorem p2dWaitStartTmr : Statement (.p2dWaitStartTmr) := rfl
theorem p2dGetStartTmr : Statement (.p2dGetStartTmr) := rfl
theorem p2dWaitBitTmr : Statement (.p2dWaitBitTmr) := rfl
theorem p2dGetBitTmr : Statement (.p2dGetBitTmr) := rfl
theorem p2dGetParityTmr : Statement (.p2dGetParityTmr) := rfl
theorem p2dWaitStopTmr : Statement (.p2dWaitStopTmr) := rfl
theorem p2dWaitAckTmr : Statement (.p2dWaitAckTmr) := rfl
theorem p2dGetAckTmr : Statement (.p2dGetAckTmr) := rfl
theorem xthIdleEdge : Statement (.xthIdleEdge) := rfl
theorem xthGetBitEdge : Statement (.xthGetBitEdge) := rfl
theorem xthGetBitTmr : Statement (.xthGetBitTmr) := rfl
theorem xthResetTmr : Statement (.xthResetTmr) := rfl
theorem xtdIdleEdge : Statement (.xtdIdleEdge) := rfl
theorem xtdHostInhibitTmr : Statement (.xtdHostInhibitTmr) := rfl
theorem xtdSendStartTmr : Statement (.xtdSendStartTmr) := rfl
theorem xtdPrepBitTmr : Statement (.xtdPrepBitTmr) := rfl
theorem xtdSendBitTmr : Statement (.xtdSendBitTmr) := rfl
theorem xtdHoldoffTmr : Statement (.xtdHoldoffTmr) := rfl
theorem framePs2D2h (v : Byte) (h : Nat) : Statement (.framePs2D2h v h) := by simp [Statement, row, encode, Row.fits, dataSymbols, agrees]
theorem framePs2H2d (v : Byte) (h : Nat) : Statement (.framePs2H2d v h) := by simp [Statement, row, encode, Row.fits, dataSymbols, agrees]
theorem frameXtD2h (v : Byte) (h : Nat) : Statement (.frameXtD2h v h) := by simp [Statement, row, encode, Row.fits, dataSymbols, agrees]

end Sys2Proof.Laws.TableRow
end

