-- ==== Sys2Proof/Laws/Sending.lean ====
section
/-!
SUPPORT. The byte that is being sent (`Sends`): where it begins, what one `put_bit()` does to it, and what the eighth
leaves (spec/30_encoding.md R63, R64; 20_memory.md R46).
-/

namespace Sys2Proof.Machine

open Sys2Proof

/-- One more symbol. -/
theorem symbolsPut_succ (v : Byte) {n : Nat} (h : n < 8) : symbolsPut v (n + 1) = symbolsPut v n ++ [v.getLsbD n] := by
  interval_cases n <;> rfl

/-- Before the first data symbol DATA shows the start symbol. -/
@[simp] theorem lastDrive_zero (v : Byte) : lastDrive v 0 = .low := rfl

/-- DATA shows the symbol put last. -/
theorem lastDrive_succ (v : Byte) {n : Nat} (h : n < 8) : lastDrive v (n + 1) = driveOf (v.getLsbD n) := by
  simp [lastDrive, symbolsPut_succ v h]

/-- A frame begins with its byte whole in `acc`. -/
theorem sends_start (w : InstState) (hb : w.bitcnt = 0) (ho : w.ones = 0) : Sends w.acc w := by
  simp [Sends, hb, ho, symbolsPut]

/-- The next symbol of the byte is the low bit of `acc`. -/
theorem Sends.getLsbD {v : Byte} {w : InstState} (h : Sends v w) : w.acc.getLsbD 0 = v.getLsbD w.bitcnt.toNat := by
  rw [h.1]
  simp

/-- After eight symbols the parity of `ones` is that of the byte. -/
theorem Sends.parity {v : Byte} {w : InstState} (h : Sends v w) (hb : w.bitcnt = 8) :
    (w.ones.toNat % 2 == 0) = oddParity v := by
  rw [h.2, hb]
  rfl

/-- `put_bit()` on the registers (R63) keeps the byte. -/
theorem Sends.put {v : Byte} {w : InstState} (h : Sends v w) (hb : w.bitcnt.toNat < 8)
    (ho : w.ones.toNat ≤ w.bitcnt.toNat) :
    Sends v { w with
      acc := w.acc >>> 1, ones := w.ones + (if w.acc.getLsbD 0 then 1 else 0), bitcnt := w.bitcnt + 1 } := by
  have hn : (w.bitcnt + 1).toNat = w.bitcnt.toNat + 1 := by bv_omega
  refine ⟨?_, ?_⟩
  · simp only [h.1, hn]
    rw [BitVec.shiftRight_add]
  · simp only [hn, symbolsPut_succ v hb, List.count_append, ← h.2, h.getLsbD]
    cases v.getLsbD w.bitcnt.toNat  <;> (simp; try bv_omega)

end Sys2Proof.Machine
end

