-- ==== Sys2Proof/Tests/Slice0.lean ====
section
/-!
SUPPORT. The model's own tests. Every expected value is written out from spec/95_test_vectors.md (the vector is
named), from the encoding tables of spec/30_encoding.md, or by hand from the rule named. Then, for every statement of
Certificates/Slice0/Obligations.lean that has hypotheses, a theorem `witness_<Name>` with states and operands that
meet them, each clause at an end of its range.
-/

namespace Sys2Proof.Tests

open Sys2Proof Sys2Proof.Machine

/-! ## Small states, and what a test looks at -/

/-- What is seen of the state an operation leaves, if it leaves one. -/
def see {A : Type} (f : State → A) : Result → Option A
  | .next s => some (f s)
  | .fault _ => none
  | .refused _ => none

/-- The name a step was refused under. -/
def refusal : Result → Option Refusal
  | .refused r => some r
  | .next _ => none
  | .fault _ => none

/-- The fault a step stopped with. -/
def faultOf : Result → Option Fault
  | .fault f => some f
  | .next _ => none
  | .refused _ => none

/-- The answer of a command: `ret` and `refused`. -/
def answered (s : State) : Nat × Bool := (s.ret.toNat, s.refused)

/-- Instance `P` in a role and a state. -/
def pIn (r : Role) (c : St) : State := { State.reset with p := { InstState.reset with role := r, st := c } }

/-- Instance `X` in a role and a state. -/
def xIn (r : Role) (c : St) : State := { State.reset with x := { InstState.reset with role := r, st := c } }

/-- Give the frame registers and `hold` of an instance. -/
def regs (i : Inst) (a : Byte) (b o : Nibble) (h : Byte) (s : State) : State :=
  s.modInst i fun v => { v with acc := a, bitcnt := b, ones := o, hold := h }

/-- The far end pulls a line low. -/
def farLow (l : Line) (s : State) : State := { s with ext := s.ext.set l .low }

/-- The block holds a line low. -/
def ownLow (l : Line) (s : State) : State := { s with own := s.own.set l .low }

/-- One byte is queued. -/
def queued (i : Inst) (d : Dir) (v : Byte) (s : State) : State := push i d v s

/-- Fifteen bytes are queued in sixteen slots, all 0: `head` stands fifteen slots on (R41). -/
def filled (i : Inst) (d : Dir) (s : State) : State :=
  s.modInst i fun v => v.setQueue d { buf := [], head := 15, tail := 0 }

/-- The timer of an instance has run out. -/
def expired (c : Owner) (s : State) : State := { s with tmr := { run := false, cnt := 0, pend := true, owner := c } }

/-- An edge of an instance's CLOCK is pending. -/
def edged (i : Inst) (s : State) : State := s.modInst i fun v => { v with edgePend := true }

/-- The frame registers and `hold` of an instance. -/
def regsOf (v : InstState) : List Nat := [v.acc.toNat, v.bitcnt.toNat, v.ones.toNat, v.hold.toNat]

/-- The drives of the four bus lines (`own[0..3]` of the vectors, `true` for `R`). -/
def lines (s : State) : List Bool := [s.own.ps2Clk, s.own.ps2Data, s.own.xtClk, s.own.xtData].map (· == .rel)

/-- The timer as the vectors write it. -/
def timer (s : State) : Bool × Nat × Bool × Owner := (s.tmr.run, s.tmr.cnt.toNat, s.tmr.pend, s.tmr.owner)

/-- What a transition is seen by: state, registers, drives, timer, detector, trace. -/
structure Seen where
  st     : St
  regs   : List Nat
  lines  : List Bool
  timer  : Bool × Nat × Bool × Owner
  mode   : EdgeMode
  events : List ErrorEvent
  deriving DecidableEq, Repr

/-- What a transition of `P` is seen by. -/
def seeP (s : State) : Seen := ⟨s.p.st, regsOf s.p, lines s, timer s, s.p.edgeMode, s.events⟩

/-- What a transition of `X` is seen by. -/
def seeX (s : State) : Seen := ⟨s.x.st, regsOf s.x, lines s, timer s, s.x.edgeMode, s.events⟩

/-! ## WellFormed refuses an ill-formed term by each of its checks -/

/-- R80: line ids are 0 to 6. -/
theorem test_wf_line : WellFormed (.lineAssert 7) = false ∧ WellFormed (.lineAssert 6) = true := by decide
theorem test_wf_env_line :
    WellFormed (.envLow 7) = false ∧ WellFormed (.envRel 15) = false ∧ WellFormed (.envRel 6) = true := by decide
/-- R96: a delay is 1 to 255. -/
theorem test_wf_delay : WellFormed (.tmrArm 0) = false ∧ WellFormed (.tmrArm 1) = true := by decide
/-- R104: an edge mode is 0 to 2. -/
theorem test_wf_mode : WellFormed (.edgeSet .P 3) = false ∧ WellFormed (.edgeSet .X 2) = true := by decide
/-- R211: a role operand is 1 or 2. -/
theorem test_wf_role :
    WellFormed (.pInit 0) = false ∧ WellFormed (.xInit 3) = false ∧ WellFormed (.xInit 2) = true := by decide
/-- R29: `cfg` has the indices 0 to 12. -/
theorem test_wf_cfg_index :
    WellFormed (.cfgRd 13) = false ∧ WellFormed (.cfgWr 13 1) = false ∧ WellFormed (.cfgRd 12) = true := by decide
/-- R29: 0 is reserved in the registers 0 to 10. -/
theorem test_wf_cfg_value : WellFormed (.cfgWr 10 0) = false ∧ WellFormed (.cfgWr 11 0) = true := by decide

/-! ## Every constructor is decoded from the word the spec gives it -/

/-- R66, unit 0, `0000 op LLLLLLLL`; V-L1, V-L3. -/
theorem test_decode_lines :
    decode (.command 0x0006) = .ok (.lineAssert 6) ∧
    decode (.command 0x0105) = .ok (.lineRelease 5) ∧
    decode (.command 0x0202) = .ok (.lineRead 2) ∧
    decode (.command 0x0007) = .ok (.lineAssert 7) :=
  by and_intros <;> rfl
/-- R66, unit 1; V-T1. -/
theorem test_decode_timer :
    decode (.command 0x1064) = .ok (.tmrArm 100) ∧
    decode (.command 0x1100) = .ok (.tmrDisable) ∧
    decode (.command 0x1200) = .ok (.tmrStatus) :=
  by and_intros <;> rfl
/-- R66, unit 2, `0010 0000 00000 mm i`; V-E1. -/
theorem test_decode_edge :
    decode (.command 0x2002) = .ok (.edgeSet .P 1) ∧
    decode (.command 0x2005) = .ok (.edgeSet .X 2) ∧
    decode (.command 0x2101) = .ok (.edgeStatus .X) :=
  by and_intros <;> rfl
/-- R66, unit 3; V-H1, V-H6, V-H8. -/
theorem test_decode_p :
    decode (.command 0x3001) = .ok (.pInit 1) ∧
    decode (.command 0x31ED) = .ok (.pPut 0xED) ∧
    decode (.command 0x3200) = .ok (.pGet) ∧
    decode (.command 0x3300) = .ok (.pRxcount) ∧
    decode (.command 0x3400) = .ok (.pTxcount) ∧
    decode (.command 0x3500) = .ok (.pReset) ∧
    decode (.command 0x3600) = .ok (.pState) :=
  by and_intros <;> rfl
/-- R66, unit 4; V-X3, V-Y1. -/
theorem test_decode_x :
    decode (.command 0x4002) = .ok (.xInit 2) ∧
    decode (.command 0x411E) = .ok (.xPut 0x1E) ∧
    decode (.command 0x4200) = .ok (.xGet) ∧
    decode (.command 0x4300) = .ok (.xRxcount) ∧
    decode (.command 0x4400) = .ok (.xTxcount) ∧
    decode (.command 0x4500) = .ok (.xReset) ∧
    decode (.command 0x4600) = .ok (.xState) ∧
    decode (.command 0x4700) = .ok (.xHreset) :=
  by and_intros <;> rfl
/-- R66, units 5 and 6; V-C1, V-C2. -/
theorem test_decode_cfg :
    decode (.command 0x5714) = .ok (.cfgWr 7 0x14) ∧
    decode (.command 0x6C00) = .ok (.cfgRd 12) :=
  by and_intros <;> rfl
/-- R67; V-L2, PRG4. -/
theorem test_decode_events :
    decode (.event 0xF000) = .ok (.envTick) ∧
    decode (.event 0xF101) = .ok (.envLow 1) ∧
    decode (.event 0xF200) = .ok (.envRel 0) ∧
    decode (.event 0xF300) = .ok (.irqEdge .P) ∧
    decode (.event 0xF301) = .ok (.irqEdge .X) ∧
    decode (.event 0xF400) = .ok (.irqTmr) :=
  by and_intros <;> rfl
/-- R69, `engine[7:6] st[5:1] event[0]` with the codes of R68: engine 0. -/
theorem test_decode_p2h :
    decode (.key 0b00000000) = .ok .p2hIdleEdge ∧
    decode (.key 0b00000101) = .ok .p2hPrepStartTmr ∧
    decode (.key 0b00000110) = .ok .p2hSendStartEdge ∧
    decode (.key 0b00001010) = .ok .p2hSendBitEdge ∧
    decode (.key 0b00001011) = .ok .p2hSendBitTmr ∧
    decode (.key 0b00001110) = .ok .p2hSendParityEdge ∧
    decode (.key 0b00001111) = .ok .p2hSendParityTmr ∧
    decode (.key 0b00010010) = .ok .p2hSendStopEdge ∧
    decode (.key 0b00010011) = .ok .p2hSendStopTmr ∧
    decode (.key 0b00011100) = .ok .p2hGetBitEdge ∧
    decode (.key 0b00011101) = .ok .p2hGetBitTmr ∧
    decode (.key 0b00011110) = .ok .p2hGetParityEdge ∧
    decode (.key 0b00011111) = .ok .p2hGetParityTmr ∧
    decode (.key 0b00100000) = .ok .p2hWaitStopEdge ∧
    decode (.key 0b00100001) = .ok .p2hWaitStopTmr ∧
    decode (.key 0b00100101) = .ok .p2hGetAckTmr :=
  by and_intros <;> rfl
/-- R69, `engine[7:6] st[5:1] event[0]` with the codes of R68: engine 1. -/
theorem test_decode_p2d :
    decode (.key 0b01000000) = .ok .p2dIdleEdge ∧
    decode (.key 0b01000010) = .ok .p2dHostInhibitEdge ∧
    decode (.key 0b01000101) = .ok .p2dPrepStartTmr ∧
    decode (.key 0b01000111) = .ok .p2dSendStartTmr ∧
    decode (.key 0b01001001) = .ok .p2dPrepBitTmr ∧
    decode (.key 0b01001011) = .ok .p2dSendBitTmr ∧
    decode (.key 0b01001101) = .ok .p2dPrepParityTmr ∧
    decode (.key 0b01001111) = .ok .p2dSendParityTmr ∧
    decode (.key 0b01010001) = .ok .p2dPrepStopTmr ∧
    decode (.key 0b01010011) = .ok .p2dSendStopTmr ∧
    decode (.key 0b01010101) = .ok .p2dHoldoffTmr ∧
    decode (.key 0b01010111) = .ok .p2dWaitStartTmr ∧
    decode (.key 0b01011001) = .ok .p2dGetStartTmr ∧
    decode (.key 0b01011011) = .ok .p2dWaitBitTmr ∧
    decode (.key 0b01011101) = .ok .p2dGetBitTmr ∧
    decode (.key 0b01011111) = .ok .p2dGetParityTmr ∧
    decode (.key 0b01100001) = .ok .p2dWaitStopTmr ∧
    decode (.key 0b01100011) = .ok .p2dWaitAckTmr ∧
    decode (.key 0b01100101) = .ok .p2dGetAckTmr :=
  by and_intros <;> rfl
/-- R69, `engine[7:6] st[5:1] event[0]` with the codes of R68: engine 2. -/
theorem test_decode_xth :
    decode (.key 0b10000000) = .ok .xthIdleEdge ∧
    decode (.key 0b10011100) = .ok .xthGetBitEdge ∧
    decode (.key 0b10011101) = .ok .xthGetBitTmr ∧
    decode (.key 0b10100111) = .ok .xthResetTmr :=
  by and_intros <;> rfl
/-- R69, `engine[7:6] st[5:1] event[0]` with the codes of R68: engine 3. -/
theorem test_decode_xtd :
    decode (.key 0b11000000) = .ok .xtdIdleEdge ∧
    decode (.key 0b11000011) = .ok .xtdHostInhibitTmr ∧
    decode (.key 0b11000111) = .ok .xtdSendStartTmr ∧
    decode (.key 0b11001001) = .ok .xtdPrepBitTmr ∧
    decode (.key 0b11001011) = .ok .xtdSendBitTmr ∧
    decode (.key 0b11010101) = .ok .xtdHoldoffTmr :=
  by and_intros <;> rfl
/-- R60, R61, R62; V-B4 and the symbols of V-D2. -/
theorem test_decode_frames :
    decode (.frame .ps2D2h [false, false, true, false, true, true, true, true, true, true, true] 40)
      = .ok (.framePs2D2h 0xFA 40) ∧
    decode (.frame .ps2H2d [false, true, false, true, true, false, true, true, true, true, true, false] 40)
      = .ok (.framePs2H2d 0xED 40) ∧
    decode (.frame .xtD2h [false, true, true, true, true, false, false, false] 50) = .ok (.frameXtD2h 0x1E 50) :=
  by and_intros <;> rfl
/-- R70, V-F2: every way the decoder rejects a word. -/
theorem test_decode_rejects :
    decode (.command 0x7000) = .error .unknownUnit ∧
    decode (.command 0x0300) = .error .unknownOp ∧
    decode (.command 0x1101) = .error .operandNotZero ∧
    decode (.event 0xE123) = .error .notAnEvent ∧
    decode (.event 0xF500) = .error .unknownOp ∧
    decode (.event 0xF110) = .error .operandNotZero ∧
    decode (.key 0x01) = .error .noRuleForKey ∧
    decode (.key 0xFF) = .error .noRuleForKey ∧
    decode (.frame .ps2D2h [false, false, true] 40) = .error .badFrame ∧
    decode (.frame .ps2D2h [false, false, true, false, true, true, true, true, true, false, true] 40)
      = .error .badFrame :=
  by and_intros <;> rfl
/-- The host's entry, on a word of each of the table's forms. -/
theorem test_table_words :
    decodeTableWord 16 0x31ED = some (.pPut 0xED) ∧
    decodeTableWord 16 0xF301 = some (.irqEdge .X) ∧
    decodeTableWord 8 0xA7 = some .xthResetTmr ∧
    decodeTableWord 11 0b00011100001 = some (.framePs2D2h 0x1C 40) :=
  by and_intros <;> rfl

/-! ## One step of every operation -/

/-- V-L1. -/
theorem test_line_assert :
    see (fun s => (answered s, s.own.ps2Clk)) (exec (.lineAssert 0) State.reset)
      = some ((0, false), .low) := by decide
/-- V-L3. -/
theorem test_line_assert_owned :
    see (fun s => (answered s, s.own.ps2Clk)) (exec (.lineAssert 0) (pIn .host .idle))
      = some ((0, true), .rel) := by decide
/-- PRG6. -/
theorem test_line_release :
    see (fun s => (answered s, s.own.parReset)) (exec (.lineRelease 5) (ownLow .parReset State.reset))
      = some ((0, false), .rel) := by decide
/-- V-L2, PRG6: wired-AND. -/
theorem test_line_read : see answered (exec (.lineRead 2) (farLow .xtClk State.reset)) = some (0, false) := by decide
/-- V-L3. -/
theorem test_line_read_high : see answered (exec (.lineRead 0) (pIn .host .idle)) = some (1, false) := by decide
/-- V-T1. -/
theorem test_tmr_arm :
    see (fun s => (answered s, timer s)) (exec (.tmrArm 100) State.reset)
      = some ((0, false), (true, 100, false, .FG)) := by decide
/-- V-T3. -/
theorem test_tmr_arm_owned : see answered (exec (.tmrArm 100) (arm .P 40 State.reset)) = some (0, true) := by decide
/-- R102: the count stays (U13). -/
theorem test_tmr_disable :
    see (fun s => (answered s, timer s)) (exec .tmrDisable (arm .FG 100 State.reset))
      = some ((0, false), (false, 100, false, .none)) := by decide
/-- V-T1. -/
theorem test_tmr_status : see answered (exec .tmrStatus (arm .FG 100 State.reset)) = some (0x0D, false) := by decide
/-- V-T1. -/
theorem test_tmr_status_expired :
    see answered (exec .tmrStatus (expired .FG State.reset))
      = some (0x0E, false) := by decide
/-- V-E1: a pending edge is discarded. -/
theorem test_edge_set :
    see (fun s => (answered s, s.p.edgeMode, s.p.edgePend)) (exec (.edgeSet .P 2) (edged .P State.reset))
      = some ((0, false), .rise, false) := by decide
/-- V-E2. -/
theorem test_edge_set_mode3 : see answered (exec (.edgeSet .P 3) State.reset) = some (0, true) := by decide
/-- V-E1. -/
theorem test_edge_status :
    see answered (exec (.edgeStatus .P) (edged .P (setEdge .P .rise State.reset)))
      = some (5, false) := by decide
/-- V-E2, R111. -/
theorem test_p_init_host :
    see seeP (exec (.pInit 1) State.reset)
      = some ⟨.idle, [0, 0, 0, 0], [true, true, true, true], (false, 0, false, .none), .fall, []⟩ := by decide
/-- V-D8. -/
theorem test_p_init_device_request :
    see seeP (exec (.pInit 2) (farLow .ps2Data State.reset))
      = some ⟨.waitStart, [0, 0, 0, 0], [true, true, true, true], (true, 40, false, .P), .off, []⟩ := by decide
/-- V-H6. -/
theorem test_p_put_host :
    see (fun s => (seeP s, s.p.txq.toList s.slots)) (exec (.pPut 0xED) (pIn .host .idle))
      = some (⟨.prepStart, [0xED, 0, 0, 0], [false, true, true, true], (true, 100, false, .P), .off, []⟩, []) :=
  by decide
/-- V-Q4. -/
theorem test_p_put_full :
    see (fun s => (answered s, s.p.txq.head)) (exec (.pPut 1) (filled .P .tx (pIn .device .hostInhibit)))
      = some ((0, true), 15) := by decide
/-- R40, R41 with `QUEUE_SLOTS` = 2: the index wraps and one byte fills the queue. -/
theorem test_p_put_two_slots :
    see (fun s => (answered s, s.p.txq.head, s.p.txq.full s.slots))
        (exec (.pPut 7) { pIn .device .hostInhibit with slots := 2, p := { (pIn .device .hostInhibit).p with txq := { buf := [], head := 1, tail := 1 } } })
      = some ((0, false), 0, true) := by decide
/-- V-H1. -/
theorem test_p_get :
    see (fun s => (answered s, s.p.rxq.toList s.slots)) (exec .pGet (queued .P .rx 0x1C (pIn .host .idle)))
      = some ((0x1C, false), []) := by decide
/-- V-Q1. -/
theorem test_p_rxcount :
    see answered (exec .pRxcount (filled .P .rx (pIn .host .idle)))
      = some (15, false) := by decide
/-- V-D3. -/
theorem test_p_txcount :
    see answered (exec .pTxcount (queued .P .tx 0xFA (pIn .device .hostInhibit)))
      = some (1, false) := by decide
/-- V-F4. -/
theorem test_p_reset :
    see (fun s => (seeP s, s.p.txq.toList s.slots))
        (exec .pReset (queued .P .tx 0xAA (ownLow .ps2Data (arm .P 20 (regs .P 3 3 1 53 (pIn .device .sendBit))))))
      = some (⟨.idle, [0, 0, 0, 0], [true, true, true, true], (false, 20, false, .none), .fall, []⟩, []) := by decide
/-- V-D1. -/
theorem test_p_state : see answered (exec .pState (pIn .device .holdoff)) = some (0x0A, false) := by decide
/-- R211 with R191. -/
theorem test_x_init_device :
    see seeX (exec (.xInit 2) (farLow .xtClk State.reset))
      = some ⟨.hostInhibit, [0, 0, 0, 0], [true, true, true, true], (true, 50, false, .X), .off, []⟩ := by decide
/-- V-F3 for `X`. -/
theorem test_x_init_again : see answered (exec (.xInit 2) (xIn .host .idle)) = some (0, true) := by decide
/-- V-Y1. -/
theorem test_x_put :
    see seeX (exec (.xPut 0x1E) (xIn .device .idle))
      = some ⟨.sendStart, [0x1E, 0, 0, 0], [true, true, true, false], (true, 100, false, .X), .off, []⟩ := by decide
/-- V-X3. -/
theorem test_x_put_host : see answered (exec (.xPut 0x55) (xIn .host .idle)) = some (0, true) := by decide
/-- V-X1. -/
theorem test_x_get :
    see (fun s => (answered s, s.x.rxq.toList s.slots)) (exec .xGet (queued .X .rx 0x1E (xIn .host .idle)))
      = some ((0x1E, false), []) := by decide
/-- V-Y1. -/
theorem test_x_get_device :
    see answered (exec .xGet (queued .X .rx 0x1E (xIn .device .idle)))
      = some (0, true) := by decide
/-- R214. -/
theorem test_x_rxcount :
    see answered (exec .xRxcount (queued .X .rx 0x1E (xIn .host .idle)))
      = some (1, false) := by decide
/-- V-Y2. -/
theorem test_x_txcount :
    see answered (exec .xTxcount (queued .X .tx 0x10 (xIn .device .hostInhibit)))
      = some (1, false) := by decide
/-- R216. -/
theorem test_x_reset :
    see (fun s => (s.x.st, lines s)) (exec .xReset (ownLow .xtClk (xIn .host .reset)))
      = some (.idle, [true, true, true, true]) := by decide
/-- V-X3. -/
theorem test_x_state : see answered (exec .xState (xIn .host .reset)) = some (0x13, false) := by decide
/-- V-X3. -/
theorem test_x_hreset :
    see seeX (exec .xHreset (xIn .host .idle))
      = some ⟨.reset, [0, 0, 0, 100], [true, true, false, true], (true, 50, false, .X), .off, []⟩ := by decide
/-- V-X3. -/
theorem test_x_hreset_busy : see answered (exec .xHreset (xIn .host .reset)) = some (0, true) := by decide
/-- V-C2. -/
theorem test_cfg_wr_options :
    see (fun s => (answered s, s.cfg.options)) (exec (.cfgWr 12 0xFE) State.reset)
      = some ((0, false), 0) := by decide
/-- V-C2. -/
theorem test_cfg_wr_zero :
    see (fun s => (answered s, s.cfg.xthResetTicks)) (exec (.cfgWr 10 0) State.reset)
      = some ((0, true), 100) := by decide
/-- V-C1. -/
theorem test_cfg_rd : see answered (exec (.cfgRd 7) State.reset) = some (10, false) := by decide
/-- V-F2. -/
theorem test_cfg_rd_13 : see answered (exec (.cfgRd 13) State.reset) = some (0, true) := by decide
/-- V-T4, the last of the three. -/
theorem test_env_tick :
    see (fun s => (s.now, timer s)) (exec .envTick (arm .FG 1 State.reset))
      = some (1, (false, 0, true, .FG)) := by decide
/-- V-E1. -/
theorem test_env_low :
    see (fun s => (s.ext.ps2Clk, s.p.edgePend)) (exec (.envLow 0) (setEdge .P .fall State.reset))
      = some (.low, true) := by decide
/-- V-E5. -/
theorem test_env_low_again :
    see (fun s => s.p.edgePend) (exec (.envLow 0) (farLow .ps2Clk (setEdge .P .fall State.reset)))
      = some false := by decide
/-- V-E1. -/
theorem test_env_rel :
    see (fun s => (s.ext.ps2Clk, s.p.edgePend)) (exec (.envRel 0) (farLow .ps2Clk (setEdge .P .rise State.reset)))
      = some (.rel, true) := by decide
/-- V-D2, key 0x40. -/
theorem test_irq_edge :
    see (fun s => (s.p.st, s.p.edgePend)) (exec (.irqEdge .P) (edged .P (pIn .device .idle)))
      = some (.hostInhibit, false) := by decide
/-- R259: key 0x04 has no rule. -/
theorem test_irq_edge_spurious :
    faultOf (exec (.irqEdge .P) (edged .P (pIn .host .prepStart)))
      = some (.spuriousDispatch .P .prepStart .edge) := by decide
/-- V-Y1, key 0xC7. -/
theorem test_irq_tmr :
    see seeX (exec .irqTmr (expired .X (regs .X 0x1E 0 0 0 (ownLow .xtData (xIn .device .sendStart)))))
      = some ⟨.sendBit, [0x0F, 1, 0, 0], [true, true, true, false], (true, 50, false, .X), .off, []⟩ := by decide
/-- R258: an expiry of the foreground is not dispatched. -/
theorem test_irq_tmr_none : refusal (exec .irqTmr (expired .FG State.reset)) = some .notEnabled := by decide
/-- V-H1 at 80; R113 starts a new frame whatever the registers held. -/
theorem test_p2h_idle_edge :
    see seeP
        (exec .p2hIdleEdge (farLow .ps2Data (farLow .ps2Clk (regs .P 0xFF 3 2 0 (setEdge .P .fall (pIn .host .idle))))))
      = some ⟨.getBit, [0, 0, 0, 0], [true, true, true, true], (true, 100, false, .P), .fall, []⟩ := by decide
/-- V-H1 at 320. -/
theorem test_p2h_get_bit_edge :
    see seeP (exec .p2hGetBitEdge (farLow .ps2Clk (regs .P 0 2 0 0 (setEdge .P .fall (pIn .host .getBit)))))
      = some ⟨.getBit, [0x80, 3, 1, 0], [true, true, true, true], (true, 100, false, .P), .fall, []⟩ := by decide
/-- V-H1 at 720. -/
theorem test_p2h_get_bit_edge_last :
    see seeP
        (exec .p2hGetBitEdge (farLow .ps2Data (farLow .ps2Clk (regs .P 0x38 7 3 0 (setEdge .P .fall (pIn .host .getBit))))))
      = some ⟨.getParity, [0x1C, 8, 3, 0], [true, true, true, true], (true, 100, false, .P), .fall, []⟩ := by decide
/-- V-H3 at 260. -/
theorem test_p2h_get_bit_tmr :
    see seeP (exec .p2hGetBitTmr (regs .P 0xC0 2 2 0 (setEdge .P .fall (pIn .host .getBit))))
      = some ⟨.idle, [0, 0, 0, 0], [true, true, true, true], (false, 0, false, .none), .fall, [.timeout .getBit]⟩ :=
  by decide
/-- V-H1 at 800. -/
theorem test_p2h_get_parity_edge :
    see seeP
        (exec .p2hGetParityEdge (farLow .ps2Data (farLow .ps2Clk (regs .P 0x1C 8 3 0 (setEdge .P .fall (pIn .host .getParity))))))
      = some ⟨.waitStop, [0x1C, 8, 3, 0], [true, true, true, true], (true, 100, false, .P), .fall, []⟩ := by decide
/-- V-H4 at 740. -/
theorem test_p2h_get_parity_tmr :
    see seeP (exec .p2hGetParityTmr (regs .P 0xFF 8 8 0 (setEdge .P .fall (pIn .host .getParity))))
      = some ⟨.idle, [0, 0, 0, 0], [true, true, true, true], (false, 0, false, .none), .fall, [.timeout .getParity]⟩ :=
  by decide
/-- V-H1 at 880. -/
theorem test_p2h_wait_stop_edge :
    see (fun s => (seeP s, s.p.rxq.toList s.slots))
        (exec .p2hWaitStopEdge (farLow .ps2Clk (regs .P 0x1C 8 3 0 (setEdge .P .fall (pIn .host .waitStop)))))
      = some (⟨.getAck, [0, 0, 0, 0], [true, false, true, true], (true, 50, false, .P), .off, []⟩, [0x1C]) :=
  by decide
/-- V-Q2. -/
theorem test_p2h_wait_stop_edge_full :
    see (fun s => (seeP s, s.p.rxq.head))
        (exec .p2hWaitStopEdge (filled .P .rx (regs .P 0x10 8 1 0 (setEdge .P .fall (pIn .host .waitStop)))))
      = some (⟨.getAck, [0, 0, 0, 0], [true, false, true, true], (true, 50, false, .P), .off, [.overflow .P .rx]⟩, 15) :=
  by decide
/-- V-H4 at 820. -/
theorem test_p2h_wait_stop_tmr :
    see seeP (exec .p2hWaitStopTmr (regs .P 0xFF 8 8 0 (setEdge .P .fall (pIn .host .waitStop))))
      = some ⟨.idle, [0, 0, 0, 0], [true, true, true, true], (false, 0, false, .none), .fall, [.timeout .waitStop]⟩ :=
  by decide
/-- V-H1 at 930. -/
theorem test_p2h_get_ack_tmr :
    see seeP (exec .p2hGetAckTmr (ownLow .ps2Data (regs .P 0 0 0 0 (setEdge .P .off (pIn .host .getAck)))))
      = some ⟨.idle, [0, 0, 0, 0], [true, true, true, true], (false, 0, false, .none), .fall, []⟩ := by decide
/-- V-H6 at 100. -/
theorem test_p2h_prep_start_tmr :
    see seeP (exec .p2hPrepStartTmr (ownLow .ps2Clk (regs .P 0xED 0 0 0 (setEdge .P .off (pIn .host .prepStart)))))
      = some ⟨.sendStart, [0xED, 0, 0, 0], [true, false, true, true], (false, 0, false, .none), .fall, []⟩ :=
  by decide
/-- V-H6 at 140. -/
theorem test_p2h_send_start_edge :
    see seeP
        (exec .p2hSendStartEdge (farLow .ps2Clk (ownLow .ps2Data (regs .P 0xED 0 0 0 (setEdge .P .fall (pIn .host .sendStart))))))
      = some ⟨.sendBit, [0x76, 1, 1, 0], [true, true, true, true], (true, 100, false, .P), .fall, []⟩ := by decide
/-- V-H6 at 220. -/
theorem test_p2h_send_bit_edge :
    see seeP (exec .p2hSendBitEdge (farLow .ps2Clk (regs .P 0x76 1 1 0 (setEdge .P .fall (pIn .host .sendBit)))))
      = some ⟨.sendBit, [0x3B, 2, 1, 0], [true, false, true, true], (true, 100, false, .P), .fall, []⟩ := by decide
/-- V-H6 at 780. -/
theorem test_p2h_send_bit_edge_parity :
    see seeP
        (exec .p2hSendBitEdge (farLow .ps2Clk (ownLow .ps2Data (regs .P 0 8 6 0 (setEdge .P .fall (pIn .host .sendBit))))))
      = some ⟨.sendParity, [0, 8, 6, 0], [true, true, true, true], (true, 100, false, .P), .fall, []⟩ := by decide
/-- V-H9 at 400. -/
theorem test_p2h_send_bit_tmr :
    see (fun s => (seeP s, s.p.txq.toList s.slots))
        (exec .p2hSendBitTmr (queued .P .tx 0xF4 (regs .P 0x1D 3 2 0 (setEdge .P .fall (pIn .host .sendBit)))))
      = some (⟨.prepStart, [0xF4, 0, 0, 0], [false, true, true, true], (true, 100, false, .P), .off, [.timeout .sendBit]⟩, []) :=
  by decide
/-- V-H6 at 860. -/
theorem test_p2h_send_parity_edge :
    see seeP
        (exec .p2hSendParityEdge (farLow .ps2Clk (ownLow .ps2Data (regs .P 0 8 6 0 (setEdge .P .fall (pIn .host .sendParity))))))
      = some ⟨.sendStop, [0, 8, 6, 0], [true, true, true, true], (true, 100, false, .P), .fall, []⟩ := by decide
/-- R127, R131. -/
theorem test_p2h_send_parity_tmr :
    see seeP (exec .p2hSendParityTmr (ownLow .ps2Data (regs .P 0 8 6 0 (setEdge .P .fall (pIn .host .sendParity)))))
      = some ⟨.idle, [0, 0, 0, 0], [true, true, true, true], (false, 0, false, .none), .fall, [.timeout .sendParity]⟩ :=
  by decide
/-- V-H6 at 940. -/
theorem test_p2h_send_stop_edge :
    see seeP
        (exec .p2hSendStopEdge (farLow .ps2Data (farLow .ps2Clk (regs .P 0 8 6 0 (setEdge .P .fall (pIn .host .sendStop))))))
      = some ⟨.idle, [0, 0, 0, 0], [true, true, true, true], (false, 0, false, .none), .fall, []⟩ := by decide
/-- V-H7. -/
theorem test_p2h_send_stop_edge_no_ack :
    see seeP (exec .p2hSendStopEdge (farLow .ps2Clk (regs .P 0 8 6 0 (setEdge .P .fall (pIn .host .sendStop)))))
      = some ⟨.idle, [0, 0, 0, 0], [true, true, true, true], (false, 0, false, .none), .fall, [.noAck]⟩ := by decide
/-- R128, R131. -/
theorem test_p2h_send_stop_tmr :
    see seeP (exec .p2hSendStopTmr (regs .P 0 8 6 0 (setEdge .P .fall (pIn .host .sendStop))))
      = some ⟨.idle, [0, 0, 0, 0], [true, true, true, true], (false, 0, false, .none), .fall, [.timeout .sendStop]⟩ :=
  by decide
/-- V-D2 at 0. -/
theorem test_p2d_idle_edge :
    see seeP (exec .p2dIdleEdge (farLow .ps2Clk (regs .P 0 0 0 0 (setEdge .P .fall (pIn .device .idle)))))
      = some ⟨.hostInhibit, [0, 0, 0, 0], [true, true, true, true], (false, 0, false, .none), .rise, []⟩ := by decide
/-- V-D3. -/
theorem test_p2d_host_inhibit_edge :
    see (fun s => (seeP s, s.p.txq.toList s.slots))
        (exec .p2dHostInhibitEdge (queued .P .tx 0xFA (farLow .ps2Data (regs .P 0 0 0 0 (setEdge .P .rise (pIn .device .hostInhibit))))))
      = some (⟨.waitStart, [0, 0, 0, 0], [true, true, true, true], (true, 40, false, .P), .off, []⟩, [0xFA]) :=
  by decide
/-- V-D5. -/
theorem test_p2d_host_inhibit_edge_send :
    see (fun s => (seeP s, s.p.txq.toList s.slots))
        (exec .p2dHostInhibitEdge (queued .P .tx 0xF0 (regs .P 0 0 0 0 (setEdge .P .rise (pIn .device .hostInhibit)))))
      = some (⟨.prepStart, [0xF0, 0, 0, 0], [true, false, true, true], (true, 40, false, .P), .off, []⟩, []) :=
  by decide
/-- V-D1 at 40. -/
theorem test_p2d_prep_start_tmr :
    see seeP (exec .p2dPrepStartTmr (ownLow .ps2Data (regs .P 0x1C 0 0 0 (setEdge .P .off (pIn .device .prepStart)))))
      = some ⟨.sendStart, [0x1C, 0, 0, 0], [true, false, true, true], (true, 40, false, .P), .off, []⟩ := by decide
/-- V-D1 at 80. -/
theorem test_p2d_send_start_tmr :
    see seeP (exec .p2dSendStartTmr (ownLow .ps2Data (regs .P 0x1C 0 0 0 (setEdge .P .off (pIn .device .sendStart)))))
      = some ⟨.prepBit, [0x1C, 0, 0, 0], [false, false, true, true], (true, 40, false, .P), .off, []⟩ := by decide
/-- V-D1 at 280. -/
theorem test_p2d_prep_bit_tmr :
    see seeP
        (exec .p2dPrepBitTmr (ownLow .ps2Data (ownLow .ps2Clk (regs .P 0x07 2 0 0 (setEdge .P .off (pIn .device .prepBit))))))
      = some ⟨.sendBit, [0x03, 3, 1, 0], [true, true, true, true], (true, 40, false, .P), .off, []⟩ := by decide
/-- V-D1 at 720. -/
theorem test_p2d_send_bit_tmr :
    see seeP (exec .p2dSendBitTmr (ownLow .ps2Data (regs .P 0x00 8 3 0 (setEdge .P .off (pIn .device .sendBit)))))
      = some ⟨.prepParity, [0, 8, 3, 0], [false, false, true, true], (true, 40, false, .P), .off, []⟩ := by decide
/-- V-D4 at 320. -/
theorem test_p2d_send_bit_tmr_abort :
    see seeP (exec .p2dSendBitTmr (farLow .ps2Clk (regs .P 0x03 3 1 0 (setEdge .P .off (pIn .device .sendBit)))))
      = some ⟨.hostInhibit, [0, 0, 0, 0], [true, true, true, true], (false, 0, false, .none), .rise, [.abort .sendBit]⟩ :=
  by decide
/-- V-D1 at 760. -/
theorem test_p2d_prep_parity_tmr :
    see seeP (exec .p2dPrepParityTmr (ownLow .ps2Clk (regs .P 0 8 3 0 (setEdge .P .off (pIn .device .prepParity)))))
      = some ⟨.sendParity, [0, 8, 3, 0], [true, false, true, true], (true, 40, false, .P), .off, []⟩ := by decide
/-- V-D1 at 800. -/
theorem test_p2d_send_parity_tmr :
    see seeP (exec .p2dSendParityTmr (ownLow .ps2Data (regs .P 0 8 3 0 (setEdge .P .off (pIn .device .sendParity)))))
      = some ⟨.prepStop, [0, 8, 3, 0], [false, false, true, true], (true, 40, false, .P), .off, []⟩ := by decide
/-- V-D1 at 840. -/
theorem test_p2d_prep_stop_tmr :
    see seeP
        (exec .p2dPrepStopTmr (ownLow .ps2Data (ownLow .ps2Clk (regs .P 0 8 3 0 (setEdge .P .off (pIn .device .prepStop))))))
      = some ⟨.sendStop, [0, 8, 3, 0], [true, true, true, true], (true, 40, false, .P), .off, []⟩ := by decide
/-- V-D1 at 880. -/
theorem test_p2d_send_stop_tmr :
    see (fun s => (seeP s, s.ackSeen))
        (exec .p2dSendStopTmr (regs .P 0 8 3 0 (setEdge .P .off (pIn .device .sendStop))))
      = some (⟨.holdoff, [0, 0, 0, 53], [false, true, true, true], (true, 40, false, .P), .off, []⟩, true) :=
  by decide
/-- V-D7 at 880. -/
theorem test_p2d_send_stop_tmr_wait :
    see (fun s => (seeP s, s.ackSeen))
        (exec .p2dSendStopTmr (setCfg .options 1 (regs .P 0 8 3 0 (setEdge .P .off (pIn .device .sendStop)))))
      = some (⟨.holdoff, [0, 0, 0, 53], [false, true, true, true], (true, 40, false, .P), .off, []⟩, false) :=
  by decide
/-- V-D1 at 920. -/
theorem test_p2d_holdoff_tmr :
    see seeP (exec .p2dHoldoffTmr (ownLow .ps2Clk (regs .P 0 0 0 53 (setEdge .P .off (pIn .device .holdoff)))))
      = some ⟨.holdoff, [0, 0, 0, 52], [true, true, true, true], (true, 40, false, .P), .off, []⟩ := by decide
/-- V-D7 at 1320. -/
theorem test_p2d_holdoff_tmr_waiting :
    see (fun s => (seeP s, s.ackSeen))
        (exec .p2dHoldoffTmr (setAckSeen false (farLow .ps2Data (regs .P 0 0 0 53 (setEdge .P .off (pIn .device .holdoff))))))
      = some (⟨.holdoff, [0, 0, 0, 53], [true, true, true, true], (true, 40, false, .P), .off, []⟩, true) := by decide
/-- V-D2 at 140. -/
theorem test_p2d_wait_start_tmr :
    see seeP (exec .p2dWaitStartTmr (farLow .ps2Data (regs .P 0 0 0 0 (setEdge .P .off (pIn .device .waitStart)))))
      = some ⟨.getStart, [0, 0, 0, 0], [false, true, true, true], (true, 40, false, .P), .off, []⟩ := by decide
/-- V-D2 at 180. -/
theorem test_p2d_get_start_tmr :
    see seeP (exec .p2dGetStartTmr (ownLow .ps2Clk (regs .P 0 0 0 0 (setEdge .P .off (pIn .device .getStart)))))
      = some ⟨.waitBit, [0, 0, 0, 0], [true, true, true, true], (true, 40, false, .P), .off, []⟩ := by decide
/-- V-D2 at 380. -/
theorem test_p2d_wait_bit_tmr :
    see seeP (exec .p2dWaitBitTmr (regs .P 0x40 2 1 0 (setEdge .P .off (pIn .device .waitBit))))
      = some ⟨.getBit, [0xA0, 3, 2, 0], [false, true, true, true], (true, 40, false, .P), .off, []⟩ := by decide
/-- V-D2 at 260. -/
theorem test_p2d_get_bit_tmr :
    see seeP (exec .p2dGetBitTmr (ownLow .ps2Clk (regs .P 0x80 1 1 0 (setEdge .P .off (pIn .device .getBit)))))
      = some ⟨.waitBit, [0x80, 1, 1, 0], [true, true, true, true], (true, 40, false, .P), .off, []⟩ := by decide
/-- V-D2 at 820. -/
theorem test_p2d_get_bit_tmr_last :
    see seeP (exec .p2dGetBitTmr (ownLow .ps2Clk (regs .P 0xED 8 6 0 (setEdge .P .off (pIn .device .getBit)))))
      = some ⟨.getParity, [0xED, 8, 6, 0], [true, true, true, true], (true, 40, false, .P), .off, []⟩ := by decide
/-- V-D2 at 860. -/
theorem test_p2d_get_parity_tmr :
    see seeP (exec .p2dGetParityTmr (regs .P 0xED 8 6 0 (setEdge .P .off (pIn .device .getParity))))
      = some ⟨.waitStop, [0xED, 8, 6, 0], [false, true, true, true], (true, 40, false, .P), .off, []⟩ := by decide
/-- V-D2 at 900. -/
theorem test_p2d_wait_stop_tmr :
    see seeP (exec .p2dWaitStopTmr (ownLow .ps2Clk (regs .P 0xED 8 6 0 (setEdge .P .off (pIn .device .waitStop)))))
      = some ⟨.waitAck, [0xED, 8, 6, 0], [true, false, true, true], (true, 40, false, .P), .off, []⟩ := by decide
/-- V-D2 at 940. -/
theorem test_p2d_wait_ack_tmr :
    see seeP (exec .p2dWaitAckTmr (ownLow .ps2Data (regs .P 0xED 8 6 0 (setEdge .P .off (pIn .device .waitAck)))))
      = some ⟨.getAck, [0xED, 8, 6, 0], [false, false, true, true], (true, 40, false, .P), .off, []⟩ := by decide
/-- V-D2 at 980. -/
theorem test_p2d_get_ack_tmr :
    see (fun s => (seeP s, s.p.rxq.toList s.slots))
        (exec .p2dGetAckTmr (ownLow .ps2Data (ownLow .ps2Clk (regs .P 0xED 8 6 0 (setEdge .P .off (pIn .device .getAck))))))
      = some (⟨.holdoff, [0, 0, 0, 53], [true, true, true, true], (true, 40, false, .P), .off, []⟩, [0xED]) :=
  by decide
/-- V-X1 at 150. -/
theorem test_xth_idle_edge :
    see seeX
        (exec .xthIdleEdge (farLow .xtData (farLow .xtClk (regs .X 0xFF 3 3 0 (setEdge .X .fall (xIn .host .idle))))))
      = some ⟨.getBit, [0, 1, 0, 0], [true, true, true, true], (true, 200, false, .X), .fall, []⟩ := by decide
/-- V-X1 at 350. -/
theorem test_xth_get_bit_edge :
    see seeX (exec .xthGetBitEdge (farLow .xtClk (regs .X 0x80 2 1 0 (setEdge .X .fall (xIn .host .getBit)))))
      = some ⟨.getBit, [0xC0, 3, 2, 0], [true, true, true, true], (true, 200, false, .X), .fall, []⟩ := by decide
/-- V-X1 at 850. -/
theorem test_xth_get_bit_edge_last :
    see (fun s => (seeX s, s.x.rxq.toList s.slots))
        (exec .xthGetBitEdge (farLow .xtData (farLow .xtClk (regs .X 0x3C 7 4 0 (setEdge .X .fall (xIn .host .getBit))))))
      = some (⟨.idle, [0, 0, 0, 0], [true, true, true, true], (false, 0, false, .none), .fall, []⟩, [0x1E]) :=
  by decide
/-- V-X2 at 500. -/
theorem test_xth_get_bit_tmr :
    see seeX (exec .xthGetBitTmr (farLow .xtData (regs .X 0 3 0 0 (setEdge .X .fall (xIn .host .getBit)))))
      = some ⟨.idle, [0, 0, 0, 0], [true, true, true, true], (false, 0, false, .none), .fall, [.timeout .getBit]⟩ :=
  by decide
/-- V-X3, the first tick. -/
theorem test_xth_reset_tmr :
    see seeX (exec .xthResetTmr (ownLow .xtClk (regs .X 0 0 0 100 (setEdge .X .off (xIn .host .reset)))))
      = some ⟨.reset, [0, 0, 0, 99], [true, true, false, true], (true, 50, false, .X), .off, []⟩ := by decide
/-- V-X3 at 5000. -/
theorem test_xth_reset_tmr_end :
    see seeX (exec .xthResetTmr (ownLow .xtClk (regs .X 0 0 0 1 (setEdge .X .off (xIn .host .reset)))))
      = some ⟨.idle, [0, 0, 0, 0], [true, true, true, true], (false, 0, false, .none), .fall, []⟩ := by decide
/-- V-Y2 at 0, after the leftover `hold` of V-Y4. -/
theorem test_xtd_idle_edge :
    see seeX (exec .xtdIdleEdge (farLow .xtClk (regs .X 0 0 0 2 (setEdge .X .fall (xIn .device .idle)))))
      = some ⟨.hostInhibit, [0, 0, 0, 0], [true, true, true, true], (true, 50, false, .X), .off, []⟩ := by decide
/-- V-Y2 at 3000. -/
theorem test_xtd_host_inhibit_tmr :
    see (fun s => (seeX s, s.x.txq.toList s.slots))
        (exec .xtdHostInhibitTmr (queued .X .tx 0x10 (farLow .xtClk (regs .X 0 0 0 59 (setEdge .X .off (xIn .device .hostInhibit))))))
      = some (⟨.hostInhibit, [0, 0, 0, 60], [true, true, true, true], (true, 50, false, .X), .off, [.resetRequest]⟩, [0xAA]) :=
  by decide
/-- V-Y3. -/
theorem test_xtd_host_inhibit_tmr_max :
    see seeX
        (exec .xtdHostInhibitTmr (farLow .xtClk (regs .X 0 0 0 255 (setEdge .X .off (xIn .device .hostInhibit)))))
      = some ⟨.hostInhibit, [0, 0, 0, 255], [true, true, true, true], (true, 50, false, .X), .off, []⟩ := by decide
/-- V-Y1 at 100. -/
theorem test_xtd_send_start_tmr :
    see seeX (exec .xtdSendStartTmr (ownLow .xtData (regs .X 0x1E 0 0 0 (setEdge .X .off (xIn .device .sendStart)))))
      = some ⟨.sendBit, [0x0F, 1, 0, 0], [true, true, true, false], (true, 50, false, .X), .off, []⟩ := by decide
/-- V-Y1 at 250. -/
theorem test_xtd_send_bit_tmr :
    see seeX (exec .xtdSendBitTmr (regs .X 0x07 2 1 0 (setEdge .X .off (xIn .device .sendBit))))
      = some ⟨.prepBit, [0x07, 2, 1, 0], [true, true, false, true], (true, 50, false, .X), .off, []⟩ := by decide
/-- V-Y6 at 350. -/
theorem test_xtd_send_bit_tmr_abort :
    see seeX (exec .xtdSendBitTmr (farLow .xtClk (regs .X 0x03 3 2 7 (setEdge .X .off (xIn .device .sendBit)))))
      = some ⟨.hostInhibit, [0, 0, 0, 0], [true, true, true, true], (true, 50, false, .X), .off, [.abort .sendBit]⟩ :=
  by decide
/-- V-Y1 at 200. -/
theorem test_xtd_prep_bit_tmr :
    see seeX
        (exec .xtdPrepBitTmr (ownLow .xtData (ownLow .xtClk (regs .X 0x0F 1 0 0 (setEdge .X .off (xIn .device .prepBit))))))
      = some ⟨.sendBit, [0x07, 2, 1, 0], [true, true, true, true], (true, 50, false, .X), .off, []⟩ := by decide
/-- V-Y1 at 900. -/
theorem test_xtd_prep_bit_tmr_end :
    see seeX
        (exec .xtdPrepBitTmr (ownLow .xtData (ownLow .xtClk (regs .X 0 8 4 0 (setEdge .X .off (xIn .device .prepBit))))))
      = some ⟨.holdoff, [0, 0, 0, 10], [true, true, true, true], (true, 50, false, .X), .off, []⟩ := by decide
/-- V-Y1 at 950. -/
theorem test_xtd_holdoff_tmr :
    see seeX (exec .xtdHoldoffTmr (regs .X 0 0 0 10 (setEdge .X .off (xIn .device .holdoff))))
      = some ⟨.holdoff, [0, 0, 0, 9], [true, true, true, true], (true, 50, false, .X), .off, []⟩ := by decide
/-- V-Y5 at 50. -/
theorem test_xtd_holdoff_tmr_end :
    see (fun s => (seeX s, s.x.txq.toList s.slots))
        (exec .xtdHoldoffTmr (queued .X .tx 0x1E (farLow .xtData (regs .X 0 0 0 1 (setEdge .X .off (xIn .device .holdoff))))))
      = some (⟨.holdoff, [0, 0, 0, 1], [true, true, true, true], (true, 50, false, .X), .off, []⟩, [0x1E]) :=
  by decide
/-- R73, `ENV.PS2_D2H 0x1C, 1`: D0 to D7, P = 0, T as 0xF1 (low) or 0xF2 (released) of PS2_DATA. -/
theorem test_frame_ps2_d2h :
    see (fun s => s.script) (exec (.framePs2D2h 0x1C 1) State.reset)
      = some 
        (([0xF101, 0xF000, 0xF000]
          ++ ([0xF101, 0xF101, 0xF201, 0xF201, 0xF201, 0xF101, 0xF101, 0xF101, 0xF101, 0xF201] : List Word16).flatMap
            (fun d => [0xF100, 0xF000, d, 0xF200, 0xF000])
          ++ [0xF100, 0xF000, 0xF200] : List Word16).map Code.event) := by decide
/-- The play of V-D2, with an inhibit and a half period of one microsecond. -/
theorem test_frame_ps2_h2d :
    see (fun s => s.script) (exec (.framePs2H2d 0xED 1) (setCfg .ps2hInhibitUs 1 State.reset))
      = some 
        (([0xF100, 0xF000, 0xF101, 0xF200, 0xF000, 0xF201]
          ++ ([0xF101, 0xF201, 0xF201, 0xF101, 0xF201, 0xF201, 0xF201, 0xF201, 0xF201] : List Word16).flatMap
            (fun d => [0xF000, 0xF000, d])
          ++ [0xF000, 0xF000, 0xF000] : List Word16).map Code.event) := by decide
/-- R73, `ENV.XT_D2H 0x1E, 1`, after its `ENV.LOW XT_DATA; ENV.WAIT 100`. -/
theorem test_frame_xt_d2h :
    see (fun s => s.script.drop 101) (exec (.frameXtD2h 0x1E 1) State.reset)
      = some 
        (([0xF103, 0xF000]
          ++ ([0xF203, 0xF203, 0xF203, 0xF203, 0xF103, 0xF103, 0xF103] : List Word16).flatMap
            (fun d => [0xF102, 0xF000, 0xF202, d, 0xF000])
          ++ [0xF102, 0xF000, 0xF202, 0xF203] : List Word16).map Code.event) := by decide

/-! ## Steps -/

/-- R6: the head of `script`. -/
theorem test_step_command :
    see (fun s => (s.p.role, s.script)) (step { State.reset with script := [.command 0x3001, .event 0xF000] })
      = some (.host, [.event 0xF000]) := by decide
/-- V-F2. -/
theorem test_step_illegal :
    see (fun s => (answered s, s.script)) (step { State.reset with script := [.command 0xE123] })
      = some ((0, true), []) := by decide
/-- With an empty `script` time passes. -/
theorem test_step_time : see (fun s => s.now) (step State.reset) = some 1 := by decide
/-- R6: the handler runs before the command. -/
theorem test_step_dispatch_first :
    see (fun s => (s.p.st, s.script))
        (step { edged .P (setEdge .P .fall (pIn .host .idle)) with script := [.command 0x3300] })
      = some (.getBit, [.command 0x3300]) := by decide
/-- R251: nobody issues a dispatch key. -/
theorem test_step_key : refusal (step { State.reset with script := [.key 0x00] }) = some .notEnabled := by decide
/-- R80, R106: no line 7. -/
theorem test_step_no_line :
    refusal (step { State.reset with script := [.event 0xF107] }) = some .noSuchLine := by decide
/-- The host's entry runs a command word. -/
theorem test_fetch_word_command :
    see (fun s => s.p.role) (step (State.reset.withFetchWord 16 0x3002))
      = some .device := by decide
/-- The host's entry runs a dispatch key: XTD, PREP_BIT, TMR (R69). -/
theorem test_fetch_word_key :
    see (fun s => (s.x.role, s.x.st)) (step (State.reset.withFetchWord 8 0xC9))
      = some (.device, .sendBit) := by decide

/-! ## The hypotheses of every statement can be met -/

theorem witness_SpecWordsDecode : transitionOf .xtd .holdoff .tmr = some .xtdHoldoffTmr := rfl

theorem witness_EncodeOfDecode :
    decode (.command 0x5C01) = .ok (.cfgWr 12 1) ∧ decode (.event 0xF20F) = .ok (.envRel 15) ∧
    decode (.key 0x55) = .ok .p2dHoldoffTmr ∧
    decode (.frame .xtD2h [false, true, false, true, false, true, false, true] 0) = .ok (.frameXtD2h 0xAA 0) := by
  and_intros <;> rfl

/-- The lowest and the highest illegal word, and an illegal operand of every unit (V-F2). -/
theorem witness_IllegalCommandsRefused :
    let s := { State.reset with script := [.command 0xE123] }
    deliverable s = none ∧ s.script = .command 0xE123 :: [] ∧
    ([0x0007, 0x0300, 0x1101, 0x1300, 0x2006, 0x2008, 0x2102, 0x3000, 0x3003, 0x3700, 0x4701, 0x4800, 0x5D01, 0x6001,
      0x6D00, 0x7000, 0xE123, 0xFFFF] : List Word16).all illegalCommand = true := by decide

theorem witness_StepRunsDecoded :
    let s (c : Code) : State := { State.reset with script := [c, .event 0xF000] }
    (deliverable (s (.command 0x3001)) = none ∧ (∀ k, Code.command 0x3001 ≠ .key k) ∧
      decode (.command 0x3001) = .ok (.pInit 1)) ∧
    (deliverable (s (.event 0xF206)) = none ∧ (∀ k, Code.event 0xF206 ≠ .key k) ∧
      decode (.event 0xF206) = .ok (.envRel 6)) ∧
    (deliverable (s (.key 0x00)) = none ∧ (s (.key 0x00)).script = .key 0x00 :: [.event 0xF000]) ∧
    ((∀ k, Code.event 0x3001 ≠ .key k) ∧ (∀ w, Code.event 0x3001 ≠ .command w) ∧
      decode (.event 0x3001) = .error .notAnEvent) ∧
    (6 < (7 : BitVec 4).toNat ∧ decode (.event 0xF107) = .ok (.envLow 7) ∧ decode (.event 0xF207) = .ok (.envRel 7)) := by
  refine ⟨⟨by decide, by simp, rfl⟩, ⟨by decide, by simp, rfl⟩, ⟨by decide, rfl⟩, ⟨by simp, by simp, rfl⟩, by decide, rfl,
    rfl⟩

/-- Two and three notifications at once: each next one is dispatched only when those before it are not pending. -/
theorem witness_StepDispatchesByPriority :
    let both : State := { State.reset with
      p := { InstState.reset with role := .host, edgePend := true }
      x := { InstState.reset with role := .device, edgePend := true }
      tmr := { run := false, cnt := 0, pend := true, owner := .X } }
    (both.p.edgePend = true ∧ both.p.role ≠ .none) ∧
    (let s := { both with p := { both.p with role := .none } };
      ¬(s.p.edgePend = true ∧ s.p.role ≠ .none) ∧ (s.x.edgePend = true ∧ s.x.role ≠ .none)) ∧
    (let s := expired .X (xIn .device .sendStart);
      ¬(s.p.edgePend = true ∧ s.p.role ≠ .none) ∧ ¬(s.x.edgePend = true ∧ s.x.role ≠ .none) ∧
        (s.tmr.pend = true ∧ (s.tmr.owner = .P ∨ s.tmr.owner = .X))) ∧
    (let s := expired .FG State.reset;
      ¬(s.p.edgePend = true ∧ s.p.role ≠ .none) ∧ ¬(s.x.edgePend = true ∧ s.x.role ≠ .none) ∧
        ¬(s.tmr.pend = true ∧ (s.tmr.owner = .P ∨ s.tmr.owner = .X)) ∧ s.script = []) := by decide

theorem witness_NotificationsRunTheirTransition :
    (deliverable (edged .P (pIn .host .idle)) = some (.edge .P) ∧
      engineOf .P (edged .P (pIn .host .idle)).p.role = some .p2h ∧ transitionOf .p2h .idle .edge = some .p2hIdleEdge) ∧
    (deliverable (edged .X (xIn .device .sendStart)) = some (.edge .X) ∧
      engineOf .X (edged .X (xIn .device .sendStart)).x.role = some .xtd ∧ transitionOf .xtd .sendStart .edge = none) ∧
    (deliverable (expired .P (pIn .device .holdoff)) = some .timer ∧
      (expired .P (pIn .device .holdoff)).tmr.owner = ownerOf .P ∧
      engineOf .P (expired .P (pIn .device .holdoff)).p.role = some .p2d ∧
      transitionOf .p2d .holdoff .tmr = some .p2dHoldoffTmr) ∧
    (deliverable (expired .X (xIn .host .idle)) = some .timer ∧
      (expired .X (xIn .host .idle)).tmr.owner = ownerOf .X ∧
      engineOf .X (expired .X (xIn .host .idle)).x.role = some .xth ∧ transitionOf .xth .idle .tmr = none) ∧
    deliverable (expired .P (pIn .device .holdoff)) ≠ some (.edge .P) ∧
    deliverable (edged .P (pIn .host .idle)) ≠ some .timer := by decide

theorem witness_OnlyDispatchWhileDeliverable :
    deliverable (edged .X (xIn .host .idle)) ≠ none ∧ inputOk (encode (.tmrArm 0)) = true ∧
    inputOk (encode (.envLow 6)) = true ∧ inputOk (encode .envTick) = true ∧
    inputOk (encode (.framePs2H2d 0xED 40)) = true ∧ inputOk (encode .irqTmr) = false := by decide

theorem witness_TransitionCompletesInItsState :
    transitionOf .xth .reset .tmr = some .xthResetTmr ∧
    (let s := xIn .host .reset;
      (s.inst (engineInst .xth).1).role = (engineInst .xth).2 ∧ (s.inst (engineInst .xth).1).st = .reset) ∧
    (let s := xIn .device .reset;
      ¬((s.inst (engineInst .xth).1).role = (engineInst .xth).2 ∧ (s.inst (engineInst .xth).1).st = .reset)) := by decide

theorem noRole_owns_nothing (s : State) (hp : s.p.role = .none) (hx : s.x.role = .none) (n : Line) (i : Inst)
    (_ : instOfLine n = some i) : (s.inst i).role = .none := by cases i <;> assumption

theorem witness_LineCommands :
    deliverable State.reset = none ∧ lineOfId 0 = some .ps2Clk ∧ lineOfId 6 = some .modeSel ∧ lineOfId 7 = none ∧
    (∀ i, instOfLine .ps2Clk = some i → (State.reset.inst i).role = .none) ∧
    (deliverable (xIn .host .idle) = none ∧ lineOfId 3 = some .xtData ∧ instOfLine .xtData = some .X ∧
      ((xIn .host .idle).inst .X).role ≠ .none) ∧
    ((farLow .ps2Clk State.reset).own.get .ps2Clk = .rel ∧ ¬(farLow .ps2Clk State.reset).ext.get .ps2Clk = .rel) ∧
    6 < (7 : Byte).toNat :=
  ⟨rfl, rfl, rfl, rfl, noRole_owns_nothing _ rfl rfl _, by decide, by decide, by decide⟩

theorem witness_TimerCommands :
    (let s := arm .P 1 (pIn .device .prepStart);
      deliverable s = none ∧ (s.tmr.owner = .P ∨ s.tmr.owner = .X)) ∧
    (let s := arm .FG 255 State.reset;
      deliverable s = none ∧ ¬(s.tmr.owner = .P ∨ s.tmr.owner = .X)) ∧
    (1 : Byte) ≠ 0 ∧ (255 : Byte) ≠ 0 := by decide

theorem witness_EdgeCommands :
    deliverable State.reset = none ∧ EdgeMode.rise.code = 2 ∧ EdgeMode.off.code = 0 ∧
    (State.reset.inst .X).role = .none ∧ deliverable (pIn .host .idle) = none ∧
    ((pIn .host .idle).inst .P).role ≠ .none := by decide

theorem witness_TickCountsDown :
    (let s := arm .P 1 (pIn .host .prepStart); deliverable s = none ∧ s.tmr.run = true ∧ s.tmr.cnt - 1 = 0) ∧
    (let s := arm .FG 2 State.reset; deliverable s = none ∧ s.tmr.run = true ∧ ¬s.tmr.cnt - 1 = 0) ∧
    (deliverable State.reset = none ∧ ¬State.reset.tmr.run = true) := by decide

theorem witness_ExpiryAtTheDelay :
    (255 : Byte) ≠ 0 ∧ 254 < (255 : Byte).toNat ∧ 255 = (255 : Byte).toNat ∧ (1 : Byte) ≠ 0 ∧ 0 < (1 : Byte).toNat := by
  decide

theorem witness_FarEndDrivesLines :
    deliverable (setEdge .P .fall State.reset) = none ∧ lineOfId (0 : BitVec 4).toNat = some .ps2Clk ∧
    lineOfId (6 : BitVec 4).toNat = some .modeSel := by decide

theorem witness_InitAndReset :
    deliverable State.reset = none ∧ State.reset.p.role = .none ∧ State.reset.x.role = .none ∧
    deliverable (farLow .ps2Clk State.reset) = none ∧
    ((0 : Byte) ≠ 1 ∧ (0 : Byte) ≠ 2) ∧ ((3 : Byte) ≠ 1 ∧ (3 : Byte) ≠ 2) ∧
    (deliverable (pIn .device .sendBit) = none ∧ (pIn .device .sendBit).p.role ≠ .none) ∧
    (deliverable (xIn .host .reset) = none ∧ (xIn .host .reset).x.role ≠ .none) := by decide

theorem witness_PutQueuesAndStarts :
    deliverable State.reset = none ∧ State.reset.p.role = .none ∧ State.reset.x.role ≠ .device ∧
    (let s := pIn .device .hostInhibit;
      deliverable s = none ∧ s.p.role ≠ .none ∧ s.p.txq.full s.slots = false ∧ s.p.st ≠ .idle) ∧
    (let s := xIn .device .holdoff;
      deliverable s = none ∧ s.x.role = .device ∧ s.x.txq.full s.slots = false ∧ s.x.st ≠ .idle) ∧
    (let s := pIn .host .idle; deliverable s = none ∧ s.p.role = .host ∧ s.p.txq.full s.slots = false ∧ s.p.st = .idle) ∧
    (let s := pIn .device .idle; deliverable s = none ∧ s.p.role = .device ∧ s.p.txq.full s.slots = false ∧ s.p.st = .idle) ∧
    (let s := xIn .device .idle; deliverable s = none ∧ s.x.role = .device ∧ s.x.txq.full s.slots = false ∧ s.x.st = .idle) := by
  decide

theorem witness_GetTakesTheOldest :
    deliverable State.reset = none ∧ State.reset.p.role = .none ∧ State.reset.x.role ≠ .host ∧
    (let s := queued .P .rx 0x1C (pIn .device .idle);
      deliverable s = none ∧ s.p.role ≠ .none ∧ s.p.rxq.empty = false) ∧
    (let s := filled .X .rx (xIn .host .getBit);
      deliverable s = none ∧ s.x.role = .host ∧ s.x.rxq.empty = false) := by decide

theorem witness_BlockedCommandsAnswerRefused :
    (let s := filled .P .tx (pIn .device .hostInhibit);
      deliverable s = none ∧ s.p.txq.full s.slots = true ∧ s.p.rxq.empty = true) ∧
    (let s := filled .X .tx (xIn .device .hostInhibit);
      deliverable s = none ∧ s.x.txq.full s.slots = true ∧ s.x.rxq.empty = true) := by decide

theorem reset_instInv (i : Inst) : InstInv i State.reset := by
  cases i <;> exact ⟨by decide, by decide, by decide, rfl⟩

theorem witness_CountsAndState :
    deliverable State.reset = none ∧ InstInv .P State.reset ∧ State.reset.p.role = .none ∧ InstInv .X State.reset ∧
    State.reset.x.role = .none ∧ deliverable (filled .P .rx (pIn .host .idle)) = none ∧ 0 < State.reset.slots ∧
    (let s := { State.reset with slots := 256 }; deliverable s = none ∧ 0 < s.slots ∧ s.slots ≤ 256) :=
  ⟨rfl, reset_instInv .P, rfl, reset_instInv .X, rfl, rfl, by decide, by decide⟩

theorem witness_HostResetPulseStarts :
    (let s := xIn .host .idle; deliverable s = none ∧ s.x.role = .host ∧ s.x.st = .idle) ∧
    (let s := xIn .host .reset; deliverable s = none ∧ ¬(s.x.role = .host ∧ s.x.st = .idle)) := by decide

theorem witness_ConfigCommands :
    deliverable State.reset = none ∧ 12 < (13 : BitVec 4).toNat ∧ ((10 : BitVec 4).toNat ≤ 10 ∧ (0 : Byte) = 0) ∧
    (cfgOfIndex 10 = some .xthResetTicks ∧ (255 : Byte) ≠ 0) ∧ cfgOfIndex 0 = some .ps2HalfCycleUs ∧
    cfgOfIndex 12 = some .options ∧ ¬(11 : BitVec 4).toNat ≤ 10 := by decide

theorem witness_FramesArePlayed : deliverable (pIn .device .idle) = none := rfl

/-- A ring of two slots, the smallest R7 allows, and one of sixteen at its end. -/
theorem witness_QueuesAreFifo :
    (let q : Queue := { buf := [(1, 7)], head := 0, tail := 0 };
      q.wf 2 ∧ q.full 2 = false ∧ q.empty = true ∧ 1 ≠ q.head) ∧
    (let q : Queue := { buf := [(1, 7)], head := 0, tail := 1 }; q.wf 2 ∧ q.full 2 = true ∧ q.empty = false) ∧
    (let q : Queue := { buf := [(3, 1), (15, 9)], head := 15, tail := 15 }; q.wf 16 ∧ q.full 16 = false) ∧
    (let q : Queue := { buf := [(3, 1), (15, 9)], head := 0, tail := 15 };
      q.wf 16 ∧ q.full 16 = false ∧ q.empty = false) ∧
    (let s := filled .X .rx (xIn .host .idle); ((s.inst .X).queue .rx).full s.slots = true) ∧
    (let s := xIn .host .idle; ((s.inst .X).queue .rx).full s.slots = false) := by decide

theorem witness_EightPutBits : 7 < 8 ∧ 0 < 8 := by decide

theorem witness_EightGetBits : State.reset.own.get (dataOf .P) = .rel ∧ State.reset.own.get (dataOf .X) = .rel := by decide

theorem witness_P2hIdleEntry :
    (pIn .host .idle).p.txq.empty = true ∧ (queued .P .tx 0xED (pIn .host .idle)).p.txq.empty = false := by decide

theorem witness_P2hReceiveFalls :
    (∀ c, (pIn .host c).p.role = .host ∧ (pIn .host c).p.st = c) ∧
    (regs .P 0x38 7 3 0 (pIn .host .getBit)).p.bitcnt + 1 = 8 ∧
    ¬(regs .P 0x1C 6 3 0 (pIn .host .getBit)).p.bitcnt + 1 = 8 := ⟨fun _ => ⟨rfl, rfl⟩, by decide⟩

theorem witness_P2hStopFallCommits :
    (let s := pIn .host .waitStop; s.p.role = .host ∧ s.p.st = .waitStop ∧ s.p.rxq.full s.slots = false) ∧
    (let s := filled .P .rx (pIn .host .waitStop); s.p.role = .host ∧ s.p.st = .waitStop ∧ s.p.rxq.full s.slots = true) := by
  decide

theorem witness_P2hFrameEnds :
    (let s := pIn .host .getAck; s.p.role = .host ∧ s.p.st = .getAck) ∧
    (let s := pIn .host .sendStop; s.p.role = .host ∧ s.p.st = .sendStop ∧ level .ps2Data s = true) ∧
    (let s := farLow .ps2Data (pIn .host .sendStop);
      s.p.role = .host ∧ s.p.st = .sendStop ∧ level .ps2Data s = false) := by decide

theorem witness_P2hTimeouts :
    (Instr.p2hSendStopTmr, St.sendStop) ∈ [(Instr.p2hGetBitTmr, St.getBit), (.p2hGetParityTmr, .getParity),
      (.p2hWaitStopTmr, .waitStop), (.p2hSendBitTmr, .sendBit), (.p2hSendParityTmr, .sendParity),
      (.p2hSendStopTmr, .sendStop)] ∧
    (pIn .host .sendStop).p.role = .host ∧ (pIn .host .sendStop).p.st = .sendStop := by decide

theorem witness_P2hRequestToSend : (pIn .host .prepStart).p.role = .host ∧ (pIn .host .prepStart).p.st = .prepStart := by
  decide

theorem witness_P2hPutsSymbols :
    (let s := pIn .host .sendStart; s.p.role = .host ∧ s.p.st = .sendStart) ∧
    (let s := regs .P 1 7 3 0 (pIn .host .sendBit); s.p.role = .host ∧ s.p.st = .sendBit ∧ s.p.bitcnt < 8) ∧
    (let s := regs .P 0 8 3 0 (pIn .host .sendBit); s.p.role = .host ∧ s.p.st = .sendBit ∧ 8 ≤ s.p.bitcnt) ∧
    (let s := pIn .host .sendParity; s.p.role = .host ∧ s.p.st = .sendParity) := by decide

theorem witness_P2dBusCheck :
    level .ps2Clk (farLow .ps2Clk (pIn .device .idle)) = false ∧
    (let s := farLow .ps2Data (pIn .device .idle); level .ps2Clk s = true ∧ level .ps2Data s = false) ∧
    (let s := queued .P .tx 0x1C (pIn .device .idle);
      level .ps2Clk s = true ∧ level .ps2Data s = true ∧ s.p.txq.empty = false) ∧
    (let s := pIn .device .idle; level .ps2Clk s = true ∧ level .ps2Data s = true ∧ s.p.txq.empty = true) ∧
    (pIn .device .hostInhibit).p.role = .device ∧ (pIn .device .hostInhibit).p.st = .hostInhibit ∧
    (pIn .device .idle).p.st = .idle := by decide

theorem witness_P2dSendTicks :
    (∀ c, (pIn .device c).p.role = .device ∧ (pIn .device c).p.st = c ∧ level .ps2Clk (pIn .device c) = true) ∧
    (∀ c, (farLow .ps2Clk (pIn .device c)).p.role = .device ∧ (farLow .ps2Clk (pIn .device c)).p.st = c ∧
      level .ps2Clk (farLow .ps2Clk (pIn .device c)) = false) ∧
    (regs .P 0 8 3 0 (pIn .device .sendBit)).p.bitcnt = 8 ∧ ¬(regs .P 1 7 3 0 (pIn .device .sendBit)).p.bitcnt = 8 :=
  ⟨fun _ => ⟨rfl, rfl, rfl⟩, fun _ => ⟨rfl, rfl, rfl⟩, by decide⟩

theorem witness_P2dPutsSymbols : ∀ c, (pIn .device c).p.role = .device ∧ (pIn .device c).p.st = c := fun _ => ⟨rfl, rfl⟩

theorem witness_P2dCommits :
    (let s := pIn .device .getAck; s.p.role = .device ∧ s.p.st = .getAck ∧ s.p.rxq.full s.slots = false) ∧
    (let s := filled .P .rx (pIn .device .getAck); s.p.role = .device ∧ s.p.st = .getAck ∧ s.p.rxq.full s.slots = true) := by
  decide

theorem witness_P2dHoldoffTick :
    (let s := setAckSeen false (pIn .device .holdoff); s.p.role = .device ∧ s.p.st = .holdoff ∧ s.ackSeen = false) ∧
    (let s := regs .P 0 0 0 2 (pIn .device .holdoff);
      s.p.role = .device ∧ s.p.st = .holdoff ∧ s.ackSeen = true ∧ s.p.hold ≠ 1) ∧
    (let s := regs .P 0 0 0 1 (pIn .device .holdoff);
      s.p.role = .device ∧ s.p.st = .holdoff ∧ s.ackSeen = true ∧ s.p.hold = 1) := by decide

theorem witness_P2dReceiveTicks :
    (∀ c, (pIn .device c).p.role = .device ∧ (pIn .device c).p.st = c) ∧
    (regs .P 0xED 8 6 0 (pIn .device .getBit)).p.bitcnt = 8 ∧
    ¬(regs .P 0xED 7 6 0 (pIn .device .getBit)).p.bitcnt = 8 := ⟨fun _ => ⟨rfl, rfl⟩, by decide⟩

theorem witness_XthFalls :
    (let s := xIn .host .idle; s.x.role = .host ∧ s.x.st = .idle) ∧
    (let s := regs .X 0x78 6 4 0 (xIn .host .getBit); s.x.role = .host ∧ s.x.st = .getBit ∧ s.x.bitcnt ≠ 7) ∧
    (let s := regs .X 0x3C 7 4 0 (xIn .host .getBit);
      s.x.role = .host ∧ s.x.st = .getBit ∧ s.x.bitcnt = 7 ∧ s.x.rxq.full s.slots = false) ∧
    (let s := filled .X .rx (regs .X 0x3C 7 4 0 (xIn .host .getBit));
      s.x.role = .host ∧ s.x.st = .getBit ∧ s.x.bitcnt = 7 ∧ s.x.rxq.full s.slots = true) := by decide

theorem witness_XthTicks :
    (let s := xIn .host .getBit; s.x.role = .host ∧ s.x.st = .getBit) ∧
    (let s := regs .X 0 0 0 2 (xIn .host .reset); s.x.role = .host ∧ s.x.st = .reset ∧ s.x.hold ≠ 1) ∧
    (let s := regs .X 0 0 0 1 (xIn .host .reset); s.x.role = .host ∧ s.x.st = .reset ∧ s.x.hold = 1) := by decide

theorem witness_XtdBusCheck :
    level .xtClk (farLow .xtClk (xIn .device .idle)) = false ∧
    (let s := queued .X .tx 0x1E (xIn .device .idle);
      level .xtClk s = true ∧ s.x.txq.empty = false ∧ level .xtData s = true) ∧
    (let s := farLow .xtData (queued .X .tx 0x1E (xIn .device .idle));
      level .xtClk s = true ∧ s.x.txq.empty = false ∧ level .xtData s = false) ∧
    (let s := xIn .device .idle; level .xtClk s = true ∧ s.x.txq.empty = true ∧ s.x.role = .device ∧ s.x.st = .idle) := by
  decide

theorem witness_XtdSendTicks :
    (let s := farLow .xtClk (xIn .device .sendStart);
      s.x.role = .device ∧ s.x.st = .sendStart ∧ level .xtClk s = false ∧ s.ext.xtClk = .low) ∧
    (let s := xIn .device .sendBit; s.x.role = .device ∧ s.x.st = .sendBit ∧ level .xtClk s = true) ∧
    (let s := regs .X 1 7 3 0 (xIn .device .prepBit); s.x.role = .device ∧ s.x.st = .prepBit ∧ s.x.bitcnt < 8) ∧
    (let s := regs .X 0 8 4 0 (xIn .device .prepBit); s.x.role = .device ∧ s.x.st = .prepBit ∧ 8 ≤ s.x.bitcnt) := by
  decide

theorem witness_XtdHoldoffAndPolls :
    (let s := regs .X 0 0 0 2 (xIn .device .holdoff); s.x.role = .device ∧ s.x.st = .holdoff ∧ s.x.hold ≠ 1) ∧
    (let s := regs .X 0 0 0 1 (xIn .device .holdoff); s.x.role = .device ∧ s.x.st = .holdoff ∧ s.x.hold = 1) ∧
    (let s := xIn .device .hostInhibit; s.x.role = .device ∧ s.x.st = .hostInhibit ∧ level .xtClk s = true) ∧
    (let s := farLow .xtClk (regs .X 0 0 0 255 (xIn .device .hostInhibit));
      s.x.role = .device ∧ s.x.st = .hostInhibit ∧ level .xtClk s = false ∧ s.x.hold = 255) ∧
    (let s := farLow .xtClk (regs .X 0 0 0 254 (xIn .device .hostInhibit));
      s.x.st = .hostInhibit ∧ level .xtClk s = false ∧ s.x.hold ≠ 255 ∧ s.x.hold + 1 ≠ s.cfg.xtResetTicks) ∧
    (let s := farLow .xtClk (regs .X 0 0 0 59 (xIn .device .hostInhibit));
      s.x.st = .hostInhibit ∧ level .xtClk s = false ∧ s.x.hold ≠ 255 ∧ s.x.hold + 1 = s.cfg.xtResetTicks ∧ 2 ≤ s.slots) := by decide

theorem witness_P2hReceivesFrame :
    let s := pIn .host .idle
    s.p.role = .host ∧ s.p.st = .idle ∧ s.own.ps2Data = .rel ∧ s.p.rxq.full s.slots = false := by decide

theorem witness_P2dSendsFrame :
    let s := ownLow .ps2Data (regs .P 0x1C 0 0 0 (pIn .device .prepStart))
    s.p.role = .device ∧ s.p.st = .prepStart ∧ s.p.acc = 0x1C ∧ s.p.bitcnt = 0 ∧ s.p.ones = 0 ∧
    s.own.ps2Clk = .rel ∧ s.own.ps2Data = .low ∧ s.ext.ps2Clk = .rel ∧ s.ext.ps2Data = .rel := by decide

theorem witness_Ps2HostToDeviceFrame :
    (let s := farLow .ps2Clk (ownLow .ps2Data (regs .P 0xED 0 0 0 (pIn .host .sendStart)));
      s.p.role = .host ∧ s.p.st = .sendStart ∧ s.p.acc = 0xED ∧ s.p.bitcnt = 0 ∧ s.p.ones = 0 ∧
        s.ext.ps2Clk = .low ∧ s.ext.ps2Data = .rel) ∧
    (let s := pIn .device .waitStart;
      s.p.role = .device ∧ s.p.st = .waitStart ∧ s.p.acc = 0 ∧ s.p.bitcnt = 0 ∧ s.p.ones = 0 ∧
        s.own.ps2Data = .rel ∧ s.p.rxq.full s.slots = false) := by decide

theorem witness_XtFrameRoundTrip :
    (let s := ownLow .xtData (regs .X 0x1E 0 0 0 (xIn .device .sendStart));
      s.x.role = .device ∧ s.x.st = .sendStart ∧ s.x.acc = 0x1E ∧ s.x.bitcnt = 0 ∧ s.x.ones = 0 ∧
        s.own.xtClk = .rel ∧ s.ext.xtClk = .rel ∧ s.ext.xtData = .rel) ∧
    (let s := xIn .host .idle;
      s.x.role = .host ∧ s.x.st = .idle ∧ s.own.xtData = .rel ∧ s.x.rxq.full s.slots = false) := by decide

/-- A PS/2 host that receives, whose bit timeout has just run out. -/
def timedOut : State := expired .P (regs .P 0xC0 2 2 0 (setEdge .P .fall (pIn .host .getBit)))

theorem timedOut_inv : BlockInv timedOut := by
  refine ⟨⟨by decide, by decide, ?_, ?_⟩, ⟨by decide, by decide, by decide, rfl⟩, by unfold TimerInv; decide,
    by unfold CfgInv; decide, ⟨3, rfl⟩, by unfold QueuesWf; decide, by unfold AtMostOne; decide⟩
  · exact ⟨by intro d h; cases h; rfl, rfl, by decide, by decide, by decide, by decide, by decide, by decide,
      by intro c h; cases h⟩
  · decide

/-- A PS/2 host whose CLOCK has just fallen in `IDLE`. -/
def fallen : State := farLow .ps2Clk (edged .P (setEdge .P .fall (pIn .host .idle)))

theorem fallen_inv : BlockInv fallen := by
  refine ⟨⟨by decide, by decide, ?_, ?_⟩, ⟨by decide, by decide, by decide, rfl⟩, by unfold TimerInv; decide,
    by unfold CfgInv; decide, ⟨3, rfl⟩, by unfold QueuesWf; decide, by unfold AtMostOne; decide⟩
  · exact ⟨by intro d h; cases h; rfl, rfl, by decide, by decide, by decide, by decide, by decide, by decide,
      by intro c h; cases h⟩
  · decide

/-- A PS/2 device that has just made CLOCK low for the third data symbol of 0x1C (V-D1 at 320). -/
def sending : State :=
  ownLow .ps2Clk (arm .P 40 (regs .P 0x03 3 1 0 (pIn .device .prepBit)))

theorem sending_inv : BlockInv sending := by
  refine ⟨⟨by decide, by decide, ?_, ?_⟩, ⟨by decide, by decide, by decide, rfl⟩, by unfold TimerInv; decide,
    by unfold CfgInv; decide, ⟨3, rfl⟩, by unfold QueuesWf; decide, by unfold AtMostOne; decide⟩
  · exact ⟨by intro d h; cases h; rfl, ⟨0x1C, by unfold Sends; decide, rfl⟩, by decide, by decide, by decide, by decide,
      by decide, by decide, by intro c h; cases h⟩
  · decide

theorem witness_StepKeepsInvariant : BlockInv timedOut ∧ (∃ t, step timedOut = .next t) ∧ BlockInv fallen ∧
    (∃ t, step fallen = .next t) ∧ BlockInv sending ∧ (∃ t, step sending = .next t) :=
  ⟨timedOut_inv, ⟨_, rfl⟩, fallen_inv, ⟨_, rfl⟩, sending_inv, ⟨_, rfl⟩⟩

theorem sending_row (r : Row) (h : rowAt .P sending = some r) : r.timer = some .ps2HalfCycleUs ∧ r.hold = .any := by
  cases h
  exact ⟨rfl, rfl⟩

theorem witness_TablesAcrossSteps :
    (∃ t, exec (.lineAssert 2) State.reset = .next t ∧ ReleasedUnclaimed .X State.reset ∧ t.x.role = .none ∧
      t.own.xtClk = .low ∧ ∃ u, exec (.lineRelease 2) t = .next u ∧ u.x.role = .none ∧ u.own.xtClk = .rel) ∧
    ((∃ t, runOps [.lineAssert 0, .pInit 2, .envTick] State.reset = .next t ∧ t.x.role = .none) ∧
      ∀ l n, Instr.lineAssert l ∈ [Instr.lineAssert 0, .pInit 2, .envTick] → lineOfId l.toNat = some n →
        instOfLine n ≠ some .X) ∧
    (BlockInv sending ∧ (∃ t, exec .envTick sending = .next t ∧ t.cfg = sending.cfg) ∧ KeepsTimer .P sending ∧
      Bounded .P sending ∧ KeepsTimer .X sending ∧ Bounded .X sending) ∧
    (∃ t, exec .p2dSendStopTmr (pIn .device .sendStop) = .next t ∧ t.p.role = .device ∧ t.p.st = .holdoff ∧
      t.own.ps2Clk = .low) := by
  refine ⟨⟨_, rfl, fun _ => ⟨rfl, rfl⟩, rfl, rfl, _, rfl, rfl, rfl⟩, ⟨⟨_, rfl, rfl⟩, fun l n hm hl => ?_⟩,
    ⟨sending_inv, ⟨_, rfl, rfl⟩, fun _ _ _ => rfl, fun r h => ?_, ?_, ?_⟩, _, rfl, rfl, rfl, rfl⟩
  · obtain rfl : l = 0 := by simpa using hm
    cases hl; decide
  · obtain ⟨ht, hh⟩ := sending_row r h
    exact ⟨fun c hc _ => by cases ht.symm.trans hc; decide, fun c hc => by cases hh.symm.trans hc⟩
  · intro r h; cases h
  · intro r h; cases h

theorem witness_SpuriousDispatchUnreachable :
    BlockInv timedOut ∧ ScriptOk { timedOut with script := [.command 0xFFFF, .event 0xF206] } ∧ ScriptOk timedOut :=
  ⟨timedOut_inv, rfl, rfl⟩

theorem witness_HandlerRaisesNothing :
    (BlockInv timedOut ∧ deliverable timedOut ≠ none ∧ ∃ t, step timedOut = .next t) ∧
    (BlockInv fallen ∧ deliverable fallen ≠ none ∧ ∃ t, step fallen = .next t) :=
  ⟨⟨timedOut_inv, by decide, _, rfl⟩, fallen_inv, by decide, _, rfl⟩

theorem witness_RoleWrittenOnceByInit :
    (∃ t, exec (.xInit 2) State.reset = .next t ∧ t.x.role = .device) ∧
    (∃ t, exec .pReset (pIn .host .idle) = .next t) := ⟨⟨_, rfl, rfl⟩, _, rfl⟩

theorem witness_HandlersTouchOnlyTheirInstance :
    (transitionOf .p2h .getBit .tmr = some .p2hGetBitTmr ∧ ∃ t, exec .p2hGetBitTmr timedOut = .next t) ∧
    (transitionOf .xtd .holdoff .tmr = some .xtdHoldoffTmr ∧
      ∃ t, exec .xtdHoldoffTmr (regs .X 0 0 0 1 (xIn .device .holdoff)) = .next t) := ⟨⟨rfl, _, rfl⟩, rfl, _, rfl⟩

theorem witness_AtMostOneEventPerStep :
    (2 ≤ State.reset.slots ∧ ∃ t, step State.reset = .next t) ∧
    (2 ≤ timedOut.slots ∧ ∃ t, step timedOut = .next t ∧ t.events = [.timeout .getBit]) ∧
    (let s := expired .X (farLow .xtClk (regs .X 0 0 0 59 { xIn .device .hostInhibit with slots := 2 }));
      2 ≤ s.slots ∧ ∃ t, step s = .next t ∧ t.events = [.resetRequest]) :=
  ⟨⟨by decide, _, rfl⟩, ⟨by decide, _, rfl, rfl⟩, by decide, _, rfl, rfl⟩

theorem witness_QuiescentTicks :
    (quiescent State.reset ∧ TimerInv State.reset.tmr) ∧
    (quiescent (arm .FG 1 (pIn .host .idle)) ∧ TimerInv (arm .FG 1 (pIn .host .idle)).tmr) := by
  refine ⟨⟨⟨.inl rfl, .inl rfl, rfl, by decide⟩, ?_⟩, ⟨.inr ⟨rfl, rfl⟩, .inl rfl, rfl, by decide⟩, ?_⟩ <;>
    (unfold TimerInv; decide)

end Sys2Proof.Tests
end

section
/-!
PROOF. Scope (spec/00_scope.md R6, 46_foreground_commands.md R210): whatever the foreground and the environment can
issue runs as one `asStep`, which has no step while a notification is deliverable.
-/

namespace Sys2Proof.Machine

open Sys2Proof

/-! ## Which event words can be issued -/

@[simp] theorem inputOk_encode_envLow (l : BitVec 4) : inputOk (encode (.envLow l)) = legalLine l.toNat := by
  decide +revert

@[simp] theorem inputOk_encode_envRel (l : BitVec 4) : inputOk (encode (.envRel l)) = legalLine l.toNat := by
  decide +revert

/-- A handler dispatch is no one's to issue (R67). -/
@[simp] theorem inputOk_encode_irqEdge (j : Inst) : inputOk (encode (.irqEdge j)) = false := by
  cases j <;> decide

/-- A handler dispatch is no one's to issue (R67). -/
@[simp] theorem inputOk_encode_irqTmr : inputOk (encode .irqTmr) = false := by decide

/-! ## Everything that can be issued is one `asStep` -/

/-- Every legal line id names a line (R80). -/
theorem exists_lineOfId_of_legalLine {l : Nat} (h : legalLine l = true) : ∃ n, lineOfId l = some n := by
  have hl : l ≤ 6 := by simpa [legalLine] using h
  interval_cases l <;> exact ⟨_, rfl⟩

theorem farEnd_of_lineOfId {l : BitVec 4} {n : Line} (h : lineOfId l.toNat = some n) (d : Drive) (s : State) :
    farEnd l d s = asStep (setExt n d) s := by
  simp [farEnd, h]

/-- A far-end change of a legal line is a step of the environment (R106, R107). -/
theorem exists_farEnd_eq_asStep {l : BitVec 4} (h : legalLine l.toNat = true) (d : Drive) :
    ∃ body, ∀ s, farEnd l d s = asStep body s := by
  obtain ⟨n, hn⟩ := exists_lineOfId_of_legalLine h
  exact ⟨setExt n d, farEnd_of_lineOfId hn d⟩

/-- A command, an ENV event or a frame is a step of the foreground or the environment, with one rule for all states. -/
theorem exists_exec_eq_asStep_of_inputOk (i : Instr) (h : inputOk (encode i) = true) :
    ∃ body, ∀ s, exec i s = asStep body s := by
  cases i
  case lineAssert | lineRelease | lineRead | tmrArm | tmrDisable | tmrStatus | edgeSet | edgeStatus | pInit | pPut
    | pGet | pRxcount | pTxcount | pReset | pState | xInit | xPut | xGet | xRxcount | xTxcount | xReset | xState
    | xHreset | cfgWr | cfgRd | envTick | framePs2D2h | frameXtD2h => exact ⟨_, fun _ => rfl⟩
  case framePs2H2d v half =>
    exact ⟨fun s => play (envPs2H2d v (s.cfg.get .ps2hInhibitUs).toNat half) s, fun _ => rfl⟩
  case envLow l => exact exists_farEnd_eq_asStep (by simpa using h) .low
  case envRel l => exact exists_farEnd_eq_asStep (by simpa using h) .rel
  case irqEdge j => simp at h
  case irqTmr => simp at h
  -- the 45 dispatch keys are not for anyone to issue (R251)
  all_goals exact absurd h Bool.false_ne_true

/-- Settles O8: each of these operations runs as one `asStep`, which R6 enables only while nothing is deliverable. -/
theorem onlyDispatchWhileDeliverable : Obligations.OnlyDispatchWhileDeliverable := by
  intro i s hd hi
  obtain ⟨body, hbody⟩ := exists_exec_eq_asStep_of_inputOk i hi
  rw [hbody s, asStep_disabled s body hd]

end Sys2Proof.Machine
end

section
/-!
PROOF. What one engine may touch (spec/10_state.md R31, 40_line_io.md R85): `TouchesOnly i` relates two states that
differ only in what belongs to the instance `i`, the timer and the ghost trace. Every operation of a rule keeps it, so
a rule's proof is the list of its operations.
-/

namespace Sys2Proof.Machine

open Sys2Proof

/-! ## `push` and `tmr_off()` field by field -/

section Fields

variable (s : State) (i : Inst) (d : Dir) (v : Byte) (c : Owner)

@[simp] theorem push_tmr : (push i d v s).tmr = s.tmr := by unfold push; split <;> simp
@[simp] theorem push_cfg : (push i d v s).cfg = s.cfg := by unfold push; split <;> simp

@[simp] theorem tmrOff_p : (tmrOff c s).p = s.p := by rw [tmrOff_eq]
@[simp] theorem tmrOff_x : (tmrOff c s).x = s.x := by rw [tmrOff_eq]
@[simp] theorem tmrOff_inst : (tmrOff c s).inst i = s.inst i := by cases i <;> simp
@[simp] theorem tmrOff_own : (tmrOff c s).own = s.own := by rw [tmrOff_eq]
@[simp] theorem tmrOff_ext : (tmrOff c s).ext = s.ext := by rw [tmrOff_eq]
@[simp] theorem tmrOff_cfg : (tmrOff c s).cfg = s.cfg := by rw [tmrOff_eq]
@[simp] theorem tmrOff_tmr : (tmrOff c s).tmr = timerWithout c s.tmr := by rw [tmrOff_eq]; rfl

@[simp] theorem push_st : ((push i d v s).inst i).st = (s.inst i).st := by
  unfold push
  split
  · simp
  · cases d <;> simp

end Fields

@[simp] theorem otherInst_ne (i : Inst) : otherInst i ≠ i := by cases i <;> simp [otherInst]

@[simp] theorem otherInst_otherInst (i : Inst) : otherInst (otherInst i) = i := by cases i <;> rfl

/-- There are two instances. -/
theorem inst_cases (i k : Inst) : k = i ∨ k = otherInst i := by cases i <;> cases k <;> simp [otherInst]

/-- `t` differs from `s` only in what belongs to the instance `i`: its registers but for the role, its two lines,
`ack_seen` (for `P`), the timer, which only it may have taken or given up, and the ghost trace. No edge becomes pending
and its queues stay well formed. -/
structure TouchesOnly (i : Inst) (s t : State) : Prop where
  other : t.inst (otherInst i) = s.inst (otherInst i)
  role : (t.inst i).role = (s.inst i).role
  pend : (s.inst i).edgePend = false → (t.inst i).edgePend = false
  queues : ∀ d, ((s.inst i).queue d).wf s.slots → ((t.inst i).queue d).wf s.slots
  own : ∀ l, l ≠ clkOf i → l ≠ dataOf i → t.own.get l = s.own.get l
  ackSeen : i = .X → t.ackSeen = s.ackSeen
  owner : t.tmr.owner = s.tmr.owner ∨ t.tmr.owner = ownerOf i ∨ s.tmr.owner = ownerOf i
  ext : t.ext = s.ext
  cfg : t.cfg = s.cfg
  now : t.now = s.now
  ret : t.ret = s.ret
  refused : t.refused = s.refused
  script : t.script = s.script
  slots : t.slots = s.slots

namespace TouchesOnly

variable {i : Inst} {s₀ s : State}

theorem refl (i : Inst) (s : State) : TouchesOnly i s s := by
  constructor <;> simp

/-- Two changes one after the other, if the first has not given the timer away. -/
theorem trans {t : State} (h : TouchesOnly i s₀ s) (h' : TouchesOnly i s t)
    (ho : s.tmr.owner = s₀.tmr.owner ∨ s₀.tmr.owner = ownerOf i) : TouchesOnly i s₀ t where
  other := h'.other.trans h.other
  role := h'.role.trans h.role
  pend hp := h'.pend (h.pend hp)
  queues d hq := by have := h'.queues d; rw [h.slots] at this; exact this (h.queues d hq)
  own l hc hd := (h'.own l hc hd).trans (h.own l hc hd)
  ackSeen hi := (h'.ackSeen hi).trans (h.ackSeen hi)
  owner := by
    rcases ho with ho | ho
    · exact ho ▸ h'.owner
    · exact .inr (.inr ho)
  ext := h'.ext.trans h.ext
  cfg := h'.cfg.trans h.cfg
  now := h'.now.trans h.now
  ret := h'.ret.trans h.ret
  refused := h'.refused.trans h.refused
  script := h'.script.trans h.script
  slots := h'.slots.trans h.slots

/-! ### The operations of the rules -/

theorem modInst {f : InstState → InstState} (h : TouchesOnly i s₀ s) (hr : (f (s.inst i)).role = (s.inst i).role)
    (hp : (s.inst i).edgePend = false → (f (s.inst i)).edgePend = false)
    (hq : ∀ d, ((s.inst i).queue d).wf s₀.slots → ((f (s.inst i)).queue d).wf s₀.slots) :
    TouchesOnly i s₀ (s.modInst i f) := by
  obtain ⟨hother, hrole, hpend, hqueues, hown, hack, howner, hext, hcfg, hnow, hret, href, hscript, hslots⟩ := h
  constructor
  case other => rw [modInst_inst_other s i f (otherInst_ne i), hother]
  case role => simp [hr, hrole]
  case pend => simpa using fun h => hp (hpend h)
  case queues => intro d h; rw [modInst_inst_same]; exact hq d (hqueues d h)
  all_goals simpa

section Registers

variable (h : TouchesOnly i s₀ s)
include h

theorem setSt (c : St) : TouchesOnly i s₀ (setSt i c s) := h.modInst rfl id fun d => by cases d <;> exact id

theorem setHold (n : Byte) : TouchesOnly i s₀ (setHold i n s) := h.modInst rfl id fun d => by cases d <;> exact id

theorem frameStart (a : Byte) : TouchesOnly i s₀ (frameStart i a s) :=
  h.modInst rfl id fun d => by cases d <;> exact id

theorem frameReset : TouchesOnly i s₀ (frameReset i s) := h.frameStart 0

theorem countBit (a : Byte) (b : Bool) : TouchesOnly i s₀ (countBit i a b s) :=
  h.modInst rfl id fun d => by cases d <;> exact id

theorem setEdge (m : EdgeMode) : TouchesOnly i s₀ (setEdge i m s) :=
  h.modInst rfl (fun _ => rfl) fun d => by cases d <;> exact id

theorem takeEdge : TouchesOnly i s₀ (takeEdge i s) := h.modInst rfl (fun _ => rfl) fun d => by cases d <;> exact id

theorem setQueue {d : Dir} {q : Queue} (hq : ((s.inst i).queue d).wf s₀.slots → q.wf s₀.slots) :
    TouchesOnly i s₀ (setQueue i d q s) :=
  h.modInst (by cases d <;> rfl) (by cases d <;> exact id) fun e => by
    cases d <;> cases e
    · exact hq
    · exact id
    · exact id
    · exact hq

theorem clear (d : Dir) : TouchesOnly i s₀ (clear i d s) := h.setQueue (Queue.wf_clear _)

theorem frameFromTx : TouchesOnly i s₀ (frameFromTx i s) :=
  TouchesOnly.frameStart (h.setQueue (by rw [h.slots]; exact Queue.wf_drop _)) _

theorem getBit : TouchesOnly i s₀ (getBit i s) := h.countBit _ _

end Registers

section Rest

variable (h : TouchesOnly i s₀ s)
include h

theorem setOwn {l : Line} (d : Drive) (hl : l = clkOf i ∨ l = dataOf i) :
    TouchesOnly i s₀ (setOwn l d s) where
  __ := h
  own m hc hd := by
    have hne : m ≠ l := by rintro rfl; exact hl.elim hc hd
    rw [setOwn_own, LineBank.get_set_other _ _ hne, h.own m hc hd]

theorem assertLine {l : Line} (hl : l = clkOf i ∨ l = dataOf i) : TouchesOnly i s₀ (assertLine l s) :=
  h.setOwn .low hl

theorem releaseLine {l : Line} (hl : l = clkOf i ∨ l = dataOf i) : TouchesOnly i s₀ (releaseLine l s) :=
  h.setOwn .rel hl

theorem driveLine {l : Line} (hl : l = clkOf i ∨ l = dataOf i) (b : Bool) :
    TouchesOnly i s₀ (driveLine l b s) := by
  cases b
  · exact h.assertLine hl
  · exact h.releaseLine hl

theorem putBit : TouchesOnly i s₀ (putBit i s) := TouchesOnly.countBit (h.driveLine (.inr rfl) _) _ _

theorem raise (e : ErrorEvent) : TouchesOnly i s₀ (raise e s) := { h with }

theorem push (d : Dir) (v : Byte) : TouchesOnly i s₀ (push i d v s) := by
  unfold Machine.push
  split
  · exact h.raise _
  · exact h.setQueue (by rw [h.slots]; exact Queue.wf_put _ v)

theorem armCfg (r : CfgReg) : TouchesOnly i s₀ (armCfg i r s) := { h with owner := .inr (.inl rfl) }

theorem tmrOff (ho : s.tmr.owner = s₀.tmr.owner ∨ s₀.tmr.owner = ownerOf i) :
    TouchesOnly i s₀ (tmrOff (ownerOf i) s) := by
  unfold Machine.tmrOff
  split
  case isFalse => exact h
  case isTrue hi =>
    have hi₀ : s₀.tmr.owner = ownerOf i := ho.elim (fun ho => ho ▸ hi) id
    exact { h with owner := .inr (.inr hi₀) }

end Rest

theorem setAckSeen (h : TouchesOnly .P s₀ s) (b : Bool) : TouchesOnly .P s₀ (setAckSeen b s) :=
  { h with ackSeen := nofun }

end TouchesOnly

end Sys2Proof.Machine
end

section
/-!
PROOF. The rules of the four engines touch only their instance (spec/10_state.md R31): each proof lists the rule's
operations in order.
-/

namespace Sys2Proof.Machine

namespace TouchesOnly

open Sys2Proof

variable {s₀ s : State}

/-! ### PS/2 device -/

section Ps2Device

variable (h : TouchesOnly .P s₀ s)
include h

theorem p2dTick (c : St) : TouchesOnly .P s₀ (p2dTick c s) := (h.armCfg _).setSt c

theorem p2dFall (c : St) : TouchesOnly .P s₀ (p2dFall c s) := (h.assertLine (.inl rfl)).p2dTick c

theorem p2dRise (c : St) : TouchesOnly .P s₀ (p2dRise c s) := (h.releaseLine (.inl rfl)).p2dTick c

theorem p2dStartSend : TouchesOnly .P s₀ (p2dStartSend s) :=
  ((h.setEdge .off).frameFromTx.assertLine (.inr rfl)).p2dTick .prepStart

theorem p2dStartReceive : TouchesOnly .P s₀ (p2dStartReceive s) := ((h.setEdge .off).frameStart 0).p2dTick .waitStart

variable (ho : s.tmr.owner = s₀.tmr.owner ∨ s₀.tmr.owner = .P)
include ho

theorem p2dCheckBus : TouchesOnly .P s₀ (p2dCheckBus s) := by
  unfold Machine.p2dCheckBus
  split
  · exact ((h.tmrOff ho).setEdge .rise).setSt .hostInhibit
  · split
    · exact h.p2dStartReceive
    · split
      · exact h.p2dStartSend
      · exact ((h.tmrOff ho).setEdge .fall).setSt .idle

theorem p2dAbort : TouchesOnly .P s₀ (p2dAbort s) :=
  ((((((h.raise _).releaseLine (.inr rfl)).releaseLine (.inl rfl)).tmrOff ho).setEdge .rise).frameReset).setSt
    .hostInhibit

theorem p2dUnlessContention {body : State → State} (hb : TouchesOnly .P s₀ (body s)) :
    TouchesOnly .P s₀ (p2dUnlessContention body s) := by
  unfold Machine.p2dUnlessContention
  split
  · exact h.p2dAbort ho
  · exact hb

end Ps2Device

variable (s)

theorem p2dIdleEdge : TouchesOnly .P s (p2dIdleEdge s) := ((refl .P s).setEdge .rise).setSt .hostInhibit

theorem p2dHostInhibitEdge : TouchesOnly .P s (Machine.p2dCheckBus s) := (refl .P s).p2dCheckBus (.inl rfl)

theorem p2dPrepStartTmr : TouchesOnly .P s (p2dPrepStartTmr s) :=
  (refl .P s).p2dUnlessContention (.inl rfl) ((refl .P s).p2dTick _)

theorem p2dSendStartTmr : TouchesOnly .P s (p2dSendStartTmr s) :=
  (refl .P s).p2dUnlessContention (.inl rfl) ((refl .P s).p2dFall _)

theorem p2dPrepBitTmr : TouchesOnly .P s (p2dPrepBitTmr s) := (refl .P s).putBit.p2dRise _

theorem p2dSendBitTmr : TouchesOnly .P s (p2dSendBitTmr s) :=
  (refl .P s).p2dUnlessContention (.inl rfl) ((refl .P s).p2dFall _)

theorem p2dPrepParityTmr : TouchesOnly .P s (p2dPrepParityTmr s) :=
  ((refl .P s).driveLine (.inr rfl) _).p2dRise _

theorem p2dSendParityTmr : TouchesOnly .P s (p2dSendParityTmr s) :=
  (refl .P s).p2dUnlessContention (.inl rfl) ((refl .P s).p2dFall _)

theorem p2dPrepStopTmr : TouchesOnly .P s (p2dPrepStopTmr s) := ((refl .P s).releaseLine (.inr rfl)).p2dRise _

theorem p2dSendStopTmr : TouchesOnly .P s (p2dSendStopTmr s) :=
  (refl .P s).p2dUnlessContention (.inl rfl)
    (((((refl .P s).assertLine (.inl rfl)).setHold _).setAckSeen _).frameReset.p2dTick _)

theorem p2dHoldoffTmr : TouchesOnly .P s (p2dHoldoffTmr s) := by
  have h := (refl .P s).releaseLine (.inl rfl)
  simp only [Machine.p2dHoldoffTmr]
  split
  · split
    · exact (h.setAckSeen true).armCfg _
    · exact h.armCfg _
  · split
    · exact (h.setHold _).p2dCheckBus (by simp)
    · exact (h.setHold _).armCfg _

theorem p2dWaitStartTmr : TouchesOnly .P s (p2dWaitStartTmr s) := (refl .P s).p2dFall _

theorem p2dGetStartTmr : TouchesOnly .P s (p2dGetStartTmr s) := (refl .P s).p2dRise _

theorem p2dWaitBitTmr : TouchesOnly .P s (p2dWaitBitTmr s) := (refl .P s).getBit.p2dFall _

theorem p2dGetBitTmr : TouchesOnly .P s (p2dGetBitTmr s) := (refl .P s).p2dRise _

theorem p2dGetParityTmr : TouchesOnly .P s (p2dGetParityTmr s) := (refl .P s).p2dFall _

theorem p2dWaitStopTmr : TouchesOnly .P s (p2dWaitStopTmr s) :=
  (((refl .P s).releaseLine (.inl rfl)).assertLine (.inr rfl)).p2dTick _

theorem p2dWaitAckTmr : TouchesOnly .P s (p2dWaitAckTmr s) := (refl .P s).p2dFall _

theorem p2dGetAckTmr : TouchesOnly .P s (p2dGetAckTmr s) :=
  ((((((refl .P s).releaseLine (.inl rfl)).releaseLine (.inr rfl)).push .rx _).setHold _).setAckSeen
    true).frameReset.p2dTick _

variable {s}

/-! ### PS/2 host -/

section Ps2Host

variable (h : TouchesOnly .P s₀ s)
include h

theorem p2hStartSend : TouchesOnly .P s₀ (p2hStartSend s) :=
  (((h.setEdge .off).frameFromTx.assertLine (.inl rfl)).armCfg _).setSt _

theorem p2hArmTimeout : TouchesOnly .P s₀ (p2hArmTimeout s) := h.armCfg _

theorem p2hCheckForData (ho : s.tmr.owner = s₀.tmr.owner ∨ s₀.tmr.owner = .P) :
    TouchesOnly .P s₀ (p2hCheckForData s) := by
  unfold Machine.p2hCheckForData
  split
  · exact ((h.tmrOff ho).setEdge .fall).setSt .idle
  · exact h.p2hStartSend

end Ps2Host

variable (s)

theorem p2hTimeout : TouchesOnly .P s (p2hTimeout s) :=
  (((refl .P s).raise _).releaseLine (.inr rfl)).frameReset.p2hCheckForData (by simp)

theorem p2hIdleEdge : TouchesOnly .P s (p2hIdleEdge s) := ((refl .P s).frameStart 0).p2hArmTimeout.setSt _

theorem p2hGetBitEdge : TouchesOnly .P s (p2hGetBitEdge s) := by
  have h := (refl .P s).getBit.p2hArmTimeout
  simp only [Machine.p2hGetBitEdge]
  split
  · exact h.setSt _
  · exact h

theorem p2hGetParityEdge : TouchesOnly .P s (p2hGetParityEdge s) := (refl .P s).p2hArmTimeout.setSt _

theorem p2hWaitStopEdge : TouchesOnly .P s (p2hWaitStopEdge s) :=
  (((((refl .P s).push .rx _).frameReset.setEdge .off).assertLine (.inr rfl)).armCfg _).setSt _

theorem p2hGetAckTmr : TouchesOnly .P s (p2hGetAckTmr s) :=
  ((refl .P s).releaseLine (.inr rfl)).p2hCheckForData (by simp)

theorem p2hPrepStartTmr : TouchesOnly .P s (p2hPrepStartTmr s) :=
  ((((refl .P s).assertLine (.inr rfl)).releaseLine (.inl rfl)).setEdge .fall).setSt _

theorem p2hSendStartEdge : TouchesOnly .P s (p2hSendStartEdge s) := (refl .P s).putBit.p2hArmTimeout.setSt _

theorem p2hSendBitEdge : TouchesOnly .P s (p2hSendBitEdge s) := by
  unfold Machine.p2hSendBitEdge
  split
  · exact (refl .P s).putBit.p2hArmTimeout
  · exact ((refl .P s).driveLine (.inr rfl) _).p2hArmTimeout.setSt _

theorem p2hSendParityEdge : TouchesOnly .P s (p2hSendParityEdge s) :=
  ((refl .P s).releaseLine (.inr rfl)).p2hArmTimeout.setSt _

theorem p2hSendStopEdge : TouchesOnly .P s (p2hSendStopEdge s) := by
  simp only [Machine.p2hSendStopEdge]
  split
  · exact ((refl .P s).raise .noAck).frameReset.p2hCheckForData (by simp)
  · exact (refl .P s).frameReset.p2hCheckForData (by simp)

variable {s}

/-! ### XT host -/

theorem xthIdle (h : TouchesOnly .X s₀ s) (ho : s.tmr.owner = s₀.tmr.owner ∨ s₀.tmr.owner = .X) :
    TouchesOnly .X s₀ (xthIdle s) := ((h.tmrOff ho).setEdge .fall).setSt .idle

theorem xthGetBitEdge (h : TouchesOnly .X s₀ s) (ho : s.tmr.owner = s₀.tmr.owner ∨ s₀.tmr.owner = .X) :
    TouchesOnly .X s₀ (xthGetBitEdge s) := by
  simp only [Machine.xthGetBitEdge]
  split
  · exact (h.getBit.push .rx _).frameReset.xthIdle (by simpa [getBit_eq] using ho)
  · exact (h.getBit.armCfg _).setSt _

variable (s)

theorem xthIdleEdge : TouchesOnly .X s (xthIdleEdge s) := ((refl .X s).frameStart 0).xthGetBitEdge (by simp)

theorem xthGetBitTmr : TouchesOnly .X s (xthGetBitTmr s) := ((refl .X s).raise _).frameReset.xthIdle (by simp)

theorem xthResetTmr : TouchesOnly .X s (xthResetTmr s) := by
  have h := (refl .X s).setHold (s.x.hold - 1)
  simp only [Machine.xthResetTmr]
  split
  · exact (h.releaseLine (.inl rfl)).xthIdle (by simp)
  · exact h.armCfg _

variable {s}

/-! ### XT device -/

section XtDevice

variable (h : TouchesOnly .X s₀ s)
include h

theorem xtdTick (c : St) : TouchesOnly .X s₀ (xtdTick c s) := (h.armCfg _).setSt c

theorem xtdInhibit : TouchesOnly .X s₀ (xtdInhibit s) := ((h.setEdge .off).setHold 0).xtdTick _

theorem xtdStartSend : TouchesOnly .X s₀ (xtdStartSend s) :=
  (((h.setEdge .off).frameFromTx.assertLine (.inr rfl)).armCfg _).setSt _

theorem xtdNotReady : TouchesOnly .X s₀ (xtdNotReady s) := ((h.setEdge .off).setHold 1).xtdTick _

theorem xtdResetRequest : TouchesOnly .X s₀ (xtdResetRequest s) := (((h.clear .tx).clear .rx).push .tx _).raise _

theorem xtdCountInhibit : TouchesOnly .X s₀ (xtdCountInhibit s) := by
  simp only [Machine.xtdCountInhibit]
  split
  · split
    · exact (h.setHold _).xtdResetRequest
    · exact h.setHold _
  · exact h

variable (ho : s.tmr.owner = s₀.tmr.owner ∨ s₀.tmr.owner = .X)
include ho

theorem xtdCheckBus : TouchesOnly .X s₀ (xtdCheckBus s) := by
  unfold Machine.xtdCheckBus
  split
  · exact h.xtdInhibit
  · split
    · split
      · exact h.xtdStartSend
      · exact h.xtdNotReady
    · exact ((h.tmrOff ho).setEdge .fall).setSt .idle

theorem xtdAbort : TouchesOnly .X s₀ (xtdAbort s) :=
  ((((h.raise _).releaseLine (.inr rfl)).releaseLine (.inl rfl)).frameReset).xtdCheckBus (by simpa using ho)

end XtDevice

variable (s)

theorem xtdSendStartTmr : TouchesOnly .X s (xtdSendStartTmr s) := by
  unfold Machine.xtdSendStartTmr
  split
  · exact (refl .X s).xtdAbort (.inl rfl)
  · exact (refl .X s).putBit.xtdTick _

theorem xtdSendBitTmr : TouchesOnly .X s (xtdSendBitTmr s) := by
  unfold Machine.xtdSendBitTmr
  split
  · exact (refl .X s).xtdAbort (.inl rfl)
  · exact ((refl .X s).assertLine (.inl rfl)).xtdTick _

theorem xtdPrepBitTmr : TouchesOnly .X s (xtdPrepBitTmr s) := by
  have h := (refl .X s).releaseLine (.inl rfl)
  simp only [Machine.xtdPrepBitTmr]
  split
  · exact h.putBit.xtdTick _
  · exact ((h.releaseLine (.inr rfl)).setHold _).frameReset.xtdTick _

theorem xtdHoldoffTmr : TouchesOnly .X s (xtdHoldoffTmr s) := by
  have h := (refl .X s).setHold (s.x.hold - 1)
  simp only [Machine.xtdHoldoffTmr]
  split
  · exact h.xtdCheckBus (by simp)
  · exact h.armCfg _

theorem xtdHostInhibitTmr : TouchesOnly .X s (xtdHostInhibitTmr s) := by
  unfold Machine.xtdHostInhibitTmr
  split
  · exact (refl .X s).xtdCountInhibit.armCfg _
  · exact (refl .X s).xtdCheckBus (.inl rfl)

end TouchesOnly

end Sys2Proof.Machine
end

section
/-!
PROOF. Where a rule lands (spec/10_state.md R28 (d), with the tables R130, R164, R187, R201): from an instance that
stands in the row of its state, each rule leaves it in the row of its next state, with the timer armed from the row's
register or given up, and with no CLOCK edge for its own detector.
-/

namespace Sys2Proof.Machine

open Sys2Proof

/-- Registers and lines are as the row says, the timer left out. `B` says whether the row's upper bound on `hold` is
claimed (notes/assumptions/11.md). -/
structure Row.Fits (B : Prop) (r : Row) (clk data : Drive) (cfg : CfgBank) (w : InstState) : Prop where
  clk : ∀ d, r.clk = some d → clk = d
  data : r.data.holds data w
  mode : w.edgeMode = r.mode
  ones : w.ones.toNat ≤ w.bitcnt.toNat
  lo : r.bitLo ≤ w.bitcnt.toNat
  hi : w.bitcnt.toNat ≤ r.bitHi
  hold : r.hold.holds w.hold
  bound : B → ∀ k, r.hold = .upTo k → w.hold ≤ cfg.get k

/-- The instance fits the row. -/
abbrev Row.FitsAt (B : Prop) (r : Row) (i : Inst) (s : State) : Prop :=
  r.Fits B (s.own.get (clkOf i)) (s.own.get (dataOf i)) s.cfg (s.inst i)

/-- The instance stands in the state `c` of the engine `e`: what a rule for `c` starts from. -/
structure Stands (B : Prop) (i : Inst) (e : Engine) (c : St) (s : State) : Prop where
  st : (s.inst i).st = c
  row : ∃ r, rowOf e c = some r ∧ r.FitsAt B i s ∧ (r.timer = none → s.tmr.owner ≠ ownerOf i)
  cfg : CfgInv s.cfg

/-- The instance stands in the row `r` after `t`, for the event `v` taken in `s`: the timer is armed from the row's
register, or was given up, or the row waits for no timer and the instance had none (the taking of a timer event sees to
that, R258); and R99 sees no edge. -/
structure LandsIn (B : Prop) (i : Inst) (e : Engine) (v : Ev) (r : Row) (s t : State) : Prop where
  row : rowOf e (t.inst i).st = some r
  fits : r.FitsAt B i t
  timed : ∀ k, r.timer = some k → t.tmr = { run := true, cnt := t.cfg.get k, pend := false, owner := ownerOf i }
  untimed : r.timer = none →
    t.tmr = timerWithout (ownerOf i) s.tmr ∨ t.tmr = s.tmr ∧ (v = .edge → s.tmr.owner ≠ ownerOf i)
  quiet : edgeSeen (t.inst i).edgeMode (level (clkOf i) s) (level (clkOf i) t) = false
  holdoff : e = .p2d → (t.inst i).st = .holdoff → t.own.get (clkOf i) = .low → (s.inst i).st = .sendStop

/-- The instance stands in the row of its state after `t`. -/
def Lands (B : Prop) (i : Inst) (e : Engine) (v : Ev) (s t : State) : Prop := ∃ r, LandsIn B i e v r s t

variable {B : Prop} {v : Ev} {s₀ s t : State} {i : Inst} {e : Engine} {c : St} {r : Row}

theorem Stands.fits {i : Inst} {e : Engine} {c : St} {r : Row} (h : Stands B i e c s) (hr : rowOf e c = some r) :
    r.FitsAt B i s := by
  obtain ⟨-, ⟨r', hr', hf, -⟩, -⟩ := h
  cases hr.symm.trans hr'
  exact hf

/-- Between two frames both counters are 0. -/
theorem Row.Fits.counters_zero {r : Row} {clk data : Drive} {cfg : CfgBank} {w : InstState}
    (h : r.Fits B clk data cfg w) (hr : r.bitHi = 0) : w.bitcnt = 0 ∧ w.ones = 0 := by
  have hhi := h.hi
  have hones := h.ones
  constructor <;> bv_omega

/-! ## Bits and symbols -/

/-- A frame begins on the start symbol, with its byte in `acc`. -/
theorem symbol_start {w : InstState} (hb : w.bitcnt = 0) (ho : w.ones = 0) : DataRule.symbol.holds .low w :=
  ⟨w.acc, sends_start w hb ho, by rw [hb]; rfl⟩

/-- A frame's last data symbol is on DATA, its counters in range: what `put_bit()` starts from and keeps. -/
structure PutsSymbol (i : Inst) (n : Nat) (s : State) : Prop where
  data : DataRule.symbol.holds (s.own.get (dataOf i)) (s.inst i)
  ones : (s.inst i).ones.toNat ≤ (s.inst i).bitcnt.toNat
  count : (s.inst i).bitcnt.toNat = n

/-- `put_bit()` (R63) puts the next symbol. -/
theorem PutsSymbol.putBit {i : Inst} {n : Nat} (h : PutsSymbol i n s) (hn : n < 8) :
    PutsSymbol i (n + 1) (putBit i s) := by
  obtain ⟨⟨b, hsends, -⟩, hones, hcount⟩ := h
  have hb : (s.inst i).bitcnt.toNat < 8 := by omega
  have hnext : ((s.inst i).bitcnt + 1).toNat = (s.inst i).bitcnt.toNat + 1 := by bv_omega
  have hdrive : lastDrive b ((s.inst i).bitcnt.toNat + 1) = if (s.inst i).acc.getLsbD 0 then .rel else .low := by
    rw [lastDrive_succ b hb, hsends.getLsbD, driveOf]
  rw [putBit_eq]
  constructor <;> simp only [modInst_inst_same, modInst_own, setOwn_inst, setOwn_own, LineBank.get_set_same, hnext]
  case data => exact ⟨b, hsends.put hb hones, by simp only [hnext, hdrive]⟩
  case ones => split <;> bv_omega
  case count => rw [hcount]

/-- A count that is not 0 stays under its bound when it counts down. -/
theorem Byte.sub_one_le {n m : Byte} (hn : n ≠ 0) (h : n ≤ m) : n - 1 ≤ m := by bv_omega

theorem clkOf_ne_dataOf (i j : Inst) : clkOf i ≠ dataOf j := by cases i <;> cases j <;> decide

/-- A symbol on DATA changes what the row says of DATA only. -/
theorem Row.Fits.driveData (h : r.FitsAt B i s) {d : DataRule} {b : Bool} (hd : d.holds (driveOf b) (s.inst i)) :
    Row.FitsAt B { r with data := d } i (driveLine (dataOf i) b s) := by
  rw [driveLine_eq]
  simp only [Row.FitsAt, setOwn_own, LineBank.get_set_other _ _ (clkOf_ne_dataOf i i), LineBank.get_set_same,
    setOwn_cfg, setOwn_inst]
  exact { h with data := hd }

/-- `put_bit()` leaves the last symbol on DATA and one bit more counted (R63). -/
theorem Row.Fits.putBit (h : r.FitsAt B i s) (hd : DataRule.symbol.holds (s.own.get (dataOf i)) (s.inst i))
    (hb : (s.inst i).bitcnt.toNat < 8) :
    Row.FitsAt B { r with data := .symbol, bitLo := 1, bitHi := 8 } i (putBit i s) := by
  obtain ⟨hdata, hones, hcount⟩ := PutsSymbol.putBit ⟨hd, h.ones, rfl⟩ hb
  rw [putBit_eq] at *
  simp only [Row.FitsAt, modInst_own, modInst_inst_same, modInst_cfg, setOwn_own, setOwn_inst, setOwn_cfg,
    LineBank.get_set_other _ _ (clkOf_ne_dataOf i i)] at *
  exact { h with data := hdata, ones := hones, lo := by simp only [hcount]; omega, hi := by simp only [hcount]; omega }

/-- `get_bit()` counts one more bit (R63). -/
theorem getBit_counters (ho : (s.inst i).ones.toNat ≤ (s.inst i).bitcnt.toNat) (hb : (s.inst i).bitcnt.toNat < 8) :
    ((getBit i s).inst i).bitcnt.toNat = (s.inst i).bitcnt.toNat + 1 ∧
    ((getBit i s).inst i).ones.toNat ≤ ((getBit i s).inst i).bitcnt.toNat := by
  rw [getBit_eq]
  simp only [modInst_inst_same]
  split <;> constructor <;> bv_omega

/-- `get_bit()` leaves one bit more counted (R63). -/
theorem Row.Fits.getBit {d : Drive} (h : r.FitsAt B i s) (hd : r.data = .fixed d)
    (hb : (s.inst i).bitcnt.toNat < 8) : Row.FitsAt B { r with bitLo := 1, bitHi := 8 } i (getBit i s) := by
  obtain ⟨hcount, hones⟩ := getBit_counters h.ones hb
  have hdata : s.own.get (dataOf i) = d := by have := h.data; rwa [hd] at this
  rw [getBit_eq] at *
  simp only [Row.FitsAt, modInst_own, modInst_inst_same, modInst_cfg] at *
  exact { h with
    data := by simp only [hd]; exact hdata
    ones := hones
    lo := by simp only [hcount]; omega
    hi := by simp only [hcount]; omega }

/-- All eight bits are counted. -/
theorem Row.Fits.full {clk data : Drive} {cfg : CfgBank} {w : InstState} (h : r.Fits B clk data cfg w)
    (hb : w.bitcnt = 8) : Row.Fits B { r with bitLo := 8 } clk data cfg w :=
  { h with lo := by simp [hb] }

/-- Not all of the eight bits are counted. -/
theorem Row.Fits.more {clk data : Drive} {cfg : CfgBank} {w : InstState} (h : r.Fits B clk data cfg w)
    (hr : r.bitHi = 8) (hb : w.bitcnt ≠ 8) : Row.Fits B { r with bitHi := 7 } clk data cfg w :=
  { h with hi := by have := h.hi; simp only; bv_omega }

/-- The byte's parity symbol (R64). -/
theorem parity_holds {d : Drive} {w : InstState} (h : DataRule.symbol.holds d w) (hb : w.bitcnt = 8) :
    DataRule.parity.holds (driveOf (w.ones.toNat % 2 == 0)) w := by
  obtain ⟨b, hs, -⟩ := h
  exact ⟨b, hs, by rw [hs.parity hb]⟩

theorem Row.Fits.bitcnt_eq {n : Nibble} {clk data : Drive} {cfg : CfgBank} {w : InstState}
    (h : r.Fits B clk data cfg w) (hlo : r.bitLo = n.toNat) (hhi : r.bitHi = n.toNat) :
    w.bitcnt = n := by
  have := h.lo
  have := h.hi
  bv_omega

theorem Row.Fits.hold_zero {clk data : Drive} {cfg : CfgBank} {w : InstState} (h : r.Fits B clk data cfg w)
    (hr : r.hold = .zero) : w.hold = 0 := h.hold.1 hr

@[simp] theorem level_clk_putBit (i j : Inst) : level (clkOf j) (putBit i s) = level (clkOf j) s := by
  rw [putBit_eq, level_modInst, level_setOwn_other _ _ (clkOf_ne_dataOf j i)]

@[simp] theorem level_clk_driveData (i j : Inst) (b : Bool) :
    level (clkOf j) (driveLine (dataOf i) b s) = level (clkOf j) s := by
  rw [driveLine_eq, level_setOwn_other _ _ (clkOf_ne_dataOf j i)]

theorem putBit_st (i : Inst) : ((putBit i s).inst i).st = (s.inst i).st := by simp [putBit_eq]

theorem HoldRule.holds_any (n : Byte) : HoldRule.any.holds n := ⟨nofun, nofun⟩

theorem HoldRule.holds_zero {n : Byte} (h : n = 0) : HoldRule.zero.holds n := ⟨fun _ => h, nofun⟩

theorem HoldRule.holds_upTo {n : Byte} (h : n ≠ 0) (k : CfgReg) : (HoldRule.upTo k).holds n := ⟨nofun, fun _ _ => h⟩

theorem Row.Fits.push (h : r.FitsAt B i s) (d : Dir) (a : Byte) : r.FitsAt B i (push i d a s) := by
  unfold Machine.push
  split
  · simpa using { h with }
  · simp only [setQueue_eq, Row.FitsAt, modInst_own, modInst_inst_same, modInst_cfg]
    cases d <;> exact { h with }

/-- Between two frames, with the lines driven as given: both counters are 0. -/
structure Between (i : Inst) (clk data : Drive) (s : State) : Prop where
  clk : s.own.get (clkOf i) = clk
  data : s.own.get (dataOf i) = data
  bitcnt : (s.inst i).bitcnt = 0
  ones : (s.inst i).ones = 0

theorem Between.fits {clk data : Drive} {m : EdgeMode} {k : Option CfgReg} {hold : HoldRule}
    (h : Between i clk data s) (hm : (s.inst i).edgeMode = m) (hh : hold.holds (s.inst i).hold)
    (hb : B → ∀ k, hold = .upTo k → (s.inst i).hold ≤ s.cfg.get k) :
    Row.FitsAt B ⟨some clk, .fixed data, m, k, 0, 0, hold⟩ i s where
  clk _ hd := by cases hd; exact h.clk
  data := h.data
  mode := hm
  ones := by rw [h.bitcnt, h.ones]
  lo := Nat.zero_le _
  hi := by rw [h.bitcnt]; exact Nat.le_refl 0
  hold := hh
  bound := hb

theorem Between.fits_any {clk data : Drive} {m : EdgeMode} {k : Option CfgReg} (h : Between i clk data s)
    (hm : (s.inst i).edgeMode = m) : Row.FitsAt B ⟨some clk, .fixed data, m, k, 0, 0, .any⟩ i s :=
  h.fits hm (HoldRule.holds_any _) nofun

theorem Between.fits_zero {clk data : Drive} {m : EdgeMode} {k : Option CfgReg} (h : Between i clk data s)
    (hm : (s.inst i).edgeMode = m) (hh : (s.inst i).hold = 0) :
    Row.FitsAt B ⟨some clk, .fixed data, m, k, 0, 0, .zero⟩ i s :=
  h.fits hm (HoldRule.holds_zero hh) nofun

/-- An instance that fits a row of no frame stands between two frames. -/
theorem Row.Fits.between {clk data : Drive} {m : EdgeMode} {k : Option CfgReg} {lo : Nat} {hold : HoldRule}
    (h : Row.FitsAt B ⟨some clk, .fixed data, m, k, lo, 0, hold⟩ i s) : Between i clk data s where
  clk := h.clk _ rfl
  data := h.data
  bitcnt := (h.counters_zero rfl).1
  ones := (h.counters_zero rfl).2

section Landing

variable {clk : Option Drive} {drive : Drive} {data : DataRule} {m : EdgeMode} {k : CfgReg} {lo hi : Nat}
  {hold : HoldRule}

/-- A rule that ends by arming the timer lands in a row that waits for it. -/
theorem lands_of_armed (hr : rowOf e c = some ⟨some drive, data, m, some k, lo, hi, hold⟩) (hst : (t.inst i).st = c)
    (ht : t.tmr = { run := true, cnt := t.cfg.get k, pend := false, owner := ownerOf i })
    (hf : Row.FitsAt B ⟨some drive, data, m, some k, lo, hi, hold⟩ i t)
    (hq : edgeSeen m (level (clkOf i) s) (level (clkOf i) t) = false) : Lands B i e v s t :=
  ⟨_, { row := hst ▸ hr
        fits := hf
        timed := fun k' hk' => by cases hk'; exact ht
        untimed := nofun
        quiet := hf.mode ▸ hq
        holdoff := fun he hc => by cases hst.symm.trans hc; cases he; cases hr }⟩

/-- A rule that ends with the timer given up lands in a row that waits for none. -/
theorem lands_of_rest (hr : rowOf e c = some ⟨clk, data, m, none, lo, hi, hold⟩) (hst : (t.inst i).st = c)
    (ht : t.tmr = timerWithout (ownerOf i) s.tmr) (hf : Row.FitsAt B ⟨clk, data, m, none, lo, hi, hold⟩ i t)
    (hq : edgeSeen m (level (clkOf i) s) (level (clkOf i) t) = false) : Lands B i e v s t :=
  ⟨_, { row := hst ▸ hr
        fits := hf
        timed := nofun
        untimed := fun _ => .inl ht
        quiet := hf.mode ▸ hq
        holdoff := fun he hc => by cases hst.symm.trans hc; cases he; cases hr }⟩

/-- An idle-entry function that finds nothing to do gives the timer up and waits for an edge. -/
theorem rest_lands (hr : rowOf e c = some ⟨some .rel, .fixed .rel, m, none, 0, 0, hold⟩)
    (ht : timerWithout (ownerOf i) s.tmr = timerWithout (ownerOf i) s₀.tmr) (h : Between i .rel .rel s)
    (hq : edgeSeen m (level (clkOf i) s₀) (level (clkOf i) s) = false) (hh : hold.holds (s.inst i).hold)
    (hb : B → ∀ k, hold = .upTo k → (s.inst i).hold ≤ s.cfg.get k) :
    Lands B i e v s₀ (setSt i c (setEdge i m (tmrOff (ownerOf i) s))) := by
  refine lands_of_rest hr ?_ ?_ (Between.fits ⟨?_, ?_, ?_, ?_⟩ ?_ (by simpa using hh) ?_) ?_
  all_goals simp_all [h.clk, h.data, h.bitcnt, h.ones]

end Landing

end Sys2Proof.Machine
end

section
/-!
PROOF. Where the rules of the PS/2 device land (spec/43_ps2_device.md R140 to R166): each goes from the row of its
state to the row of its next state in the table of R164.
-/

namespace Sys2Proof.Machine

open Sys2Proof

variable {B : Prop} {v : Ev} {s₀ s t : State} {c : St} {r : Row}

section Ends

variable {drive : Drive} {data : DataRule} {lo hi : Nat} {hold : HoldRule}

/-- The end of almost every rule of this engine (R140). -/
theorem p2dTick_lands (hr : rowP2d c = some ⟨some drive, data, .off, some .ps2HalfCycleUs, lo, hi, hold⟩)
    (hf : Row.FitsAt B ⟨some drive, data, .off, some .ps2HalfCycleUs, lo, hi, hold⟩ .P s) :
    Lands B .P .p2d v s₀ (p2dTick c s) :=
  lands_of_armed (e := .p2d) hr rfl rfl { hf with } rfl

theorem p2dFall_lands (hr : rowP2d c = some ⟨some .low, data, .off, some .ps2HalfCycleUs, lo, hi, hold⟩)
    (hf : Row.FitsAt B ⟨none, data, .off, none, lo, hi, hold⟩ .P s) : Lands B .P .p2d v s₀ (p2dFall c s) :=
  p2dTick_lands hr { hf with clk := fun _ hd => by cases hd; rfl }

theorem p2dRise_lands (hr : rowP2d c = some ⟨some .rel, data, .off, some .ps2HalfCycleUs, lo, hi, hold⟩)
    (hf : Row.FitsAt B ⟨none, data, .off, none, lo, hi, hold⟩ .P s) : Lands B .P .p2d v s₀ (p2dRise c s) :=
  p2dTick_lands hr { hf with clk := fun _ hd => by cases hd; rfl }

/-- `HOLDOFF` waits for the timer, with CLOCK low only after a send (R164). -/
theorem p2dHoldoff_lands (hst : t.p.st = .holdoff)
    (ht : t.tmr = { run := true, cnt := t.cfg.ps2HalfCycleUs, pend := false, owner := .P })
    (hf : Row.FitsAt B ⟨none, .fixed .rel, .off, none, 0, 0, .upTo .ps2HoldoffTicks⟩ .P t)
    (hlow : t.own.ps2Clk = .low → s.p.st = .sendStop) : Lands B .P .p2d v s t := by
  have hst : (t.inst .P).st = .holdoff := hst
  exact ⟨⟨none, .fixed .rel, .off, some .ps2HalfCycleUs, 0, 0, .upTo .ps2HoldoffTicks⟩,
            { row := by rw [hst]; rfl
              fits := { hf with }
              timed := fun k hk => by cases hk; exact ht
              untimed := nofun
              quiet := by rw [hf.mode]; rfl
              holdoff := fun _ _ => hlow }⟩

end Ends

theorem p2dCheckBus_lands (ht : timerWithout .P s.tmr = timerWithout .P s₀.tmr) (h : Between .P .rel .rel s) :
    Lands B .P .p2d v s₀ (p2dCheckBus s) := by
  unfold p2dCheckBus
  split
  case isTrue hlow => exact rest_lands rfl ht h (by simp [clkOf, hlow, edgeSeen]) (HoldRule.holds_any _) nofun
  case isFalse hhigh =>
    split
    · exact p2dTick_lands rfl (Between.fits_any { h with bitcnt := rfl, ones := rfl } rfl)
    · split
      · exact p2dTick_lands rfl (Between.fits_any { h with data := rfl, bitcnt := rfl, ones := rfl } rfl)
      · exact rest_lands rfl ht h (by simp_all [clkOf, edgeSeen]) (HoldRule.holds_any _) nofun

theorem p2dAbort_lands (hc : s.own.ps2Clk = .rel) (hl : level .ps2Clk s = false) :
    Lands B .P .p2d v s (p2dAbort s) := by
  have hext : s.ext.ps2Clk = .low := by cases h : s.ext.ps2Clk <;> simp_all [level, LineBank.get]
  refine lands_of_rest (c := .hostInhibit) rfl ?_ ?_ (Between.fits_any ⟨?_, ?_, ?_, ?_⟩ ?_) ?_
  all_goals simp [p2dAbort, ownerOf, clkOf, dataOf, edgeSeen, level, LineBank.get, LineBank.set, hext]

theorem p2dUnlessContention_lands {body : State → State} (hc : s.own.ps2Clk = .rel)
    (hb : Lands B .P .p2d v s (body s)) : Lands B .P .p2d v s (p2dUnlessContention body s) := by
  unfold p2dUnlessContention
  split
  case isTrue hl => exact p2dAbort_lands hc hl
  case isFalse => exact hb

theorem p2dIdleEdge_lands (h : Stands B .P .p2d .idle s) : Lands B .P .p2d .edge s (p2dIdleEdge s) := by
  obtain ⟨-, ⟨r, hr, hf, ho⟩, -⟩ := h
  cases hr
  exact ⟨_, { row := rfl
              fits := { hf with mode := rfl }
              timed := nofun
              untimed := fun _ => .inr ⟨rfl, fun _ => ho rfl⟩
              quiet := by simp [p2dIdleEdge]
              holdoff := nofun }⟩

theorem p2dHostInhibitEdge_lands (h : Stands B .P .p2d .hostInhibit s) : Lands B .P .p2d v s (p2dCheckBus s) :=
  p2dCheckBus_lands rfl (h.fits rfl).between

theorem p2dPrepStartTmr_lands (h : Stands B .P .p2d .prepStart s) : Lands B .P .p2d v s (p2dPrepStartTmr s) :=
  p2dUnlessContention_lands ((h.fits rfl).clk _ rfl) (p2dTick_lands rfl { h.fits rfl with })

theorem p2dSendStartTmr_lands (h : Stands B .P .p2d .sendStart s) : Lands B .P .p2d v s (p2dSendStartTmr s) := by
  have hf := h.fits rfl
  obtain ⟨hbit, hones⟩ := hf.counters_zero rfl
  have hd : s.own.get .ps2Data = .low := hf.data
  exact p2dUnlessContention_lands (hf.clk _ rfl) (p2dFall_lands rfl
    { hf with clk := nofun, data := hd ▸ symbol_start hbit hones, hi := Nat.le_trans hf.hi (by decide) })

theorem p2dPrepBitTmr_lands (h : Stands B .P .p2d .prepBit s) : Lands B .P .p2d v s (p2dPrepBitTmr s) := by
  have hf := h.fits rfl
  have hb : s.p.bitcnt.toNat < 8 := Nat.lt_succ_of_le hf.hi
  have hp := hf.putBit hf.data hb
  exact p2dRise_lands rfl { hp with clk := nofun }

theorem p2dSendBitTmr_lands (h : Stands B .P .p2d .sendBit s) : Lands B .P .p2d v s (p2dSendBitTmr s) := by
  have hf := h.fits rfl
  refine p2dUnlessContention_lands (hf.clk _ rfl) ?_
  split
  case isTrue hb => exact p2dFall_lands rfl { hf.full hb with clk := nofun }
  case isFalse hb => exact p2dFall_lands rfl { hf.more rfl hb with clk := nofun, lo := Nat.zero_le _ }

theorem p2dPrepParityTmr_lands (h : Stands B .P .p2d .prepParity s) : Lands B .P .p2d v s (p2dPrepParityTmr s) := by
  have hf := h.fits rfl
  exact p2dRise_lands rfl { hf.driveData (parity_holds hf.data (hf.bitcnt_eq rfl rfl)) with clk := nofun }

theorem p2dSendParityTmr_lands (h : Stands B .P .p2d .sendParity s) : Lands B .P .p2d v s (p2dSendParityTmr s) := by
  have hf := h.fits rfl
  exact p2dUnlessContention_lands (hf.clk _ rfl) (p2dFall_lands rfl { hf with clk := nofun })

theorem p2dPrepStopTmr_lands (h : Stands B .P .p2d .prepStop s) : Lands B .P .p2d v s (p2dPrepStopTmr s) :=
  p2dRise_lands rfl { h.fits rfl with clk := nofun, data := rfl }

theorem p2dSendStopTmr_lands (h : Stands B .P .p2d .sendStop s) : Lands B .P .p2d v s (p2dSendStopTmr s) := by
  have hf := h.fits rfl
  obtain ⟨-, hold, -⟩ := h.cfg
  exact p2dUnlessContention_lands (hf.clk _ rfl) (p2dHoldoff_lands rfl rfl
    { hf with
      clk := nofun
      ones := Nat.le_refl _
      lo := Nat.le_refl _
      hi := Nat.le_refl _
      hold := HoldRule.holds_upTo hold _
      bound := fun _ _ hk => by cases hk; exact BitVec.le_refl _ } fun _ => h.st)

theorem p2dHoldoffTmr_lands (h : Stands B .P .p2d .holdoff s) : Lands B .P .p2d v s (p2dHoldoffTmr s) := by
  have hf := h.fits rfl
  have hst : s.p.st = .holdoff := h.st
  have hold : s.p.hold ≠ 0 := hf.hold.2 _ rfl
  simp only [p2dHoldoffTmr]
  split
  · split
    · exact p2dHoldoff_lands hst rfl { hf with clk := nofun } nofun
    · exact p2dHoldoff_lands hst rfl { hf with clk := nofun } nofun
  · split
    case isTrue => exact p2dCheckBus_lands rfl ⟨rfl, hf.data, (hf.counters_zero rfl).1, (hf.counters_zero rfl).2⟩
    case isFalse hne =>
      exact p2dHoldoff_lands hst rfl
        { hf with
          clk := nofun
          hold := HoldRule.holds_upTo hne _
          bound := fun hB k hk => Byte.sub_one_le hold (hf.bound hB k hk) } nofun

theorem p2dWaitStartTmr_lands (h : Stands B .P .p2d .waitStart s) : Lands B .P .p2d v s (p2dWaitStartTmr s) :=
  p2dFall_lands rfl { h.fits rfl with clk := nofun }

theorem p2dGetStartTmr_lands (h : Stands B .P .p2d .getStart s) : Lands B .P .p2d v s (p2dGetStartTmr s) := by
  have hf := h.fits rfl
  exact p2dRise_lands rfl { hf with clk := nofun, hi := Nat.le_trans hf.hi (by decide) }

theorem p2dWaitBitTmr_lands (h : Stands B .P .p2d .waitBit s) : Lands B .P .p2d v s (p2dWaitBitTmr s) := by
  have hf := h.fits rfl
  have hb : s.p.bitcnt.toNat < 8 := Nat.lt_succ_of_le hf.hi
  have hg := hf.getBit rfl hb
  exact p2dFall_lands rfl { hg with clk := nofun }

theorem p2dGetBitTmr_lands (h : Stands B .P .p2d .getBit s) : Lands B .P .p2d v s (p2dGetBitTmr s) := by
  have hf := h.fits rfl
  unfold p2dGetBitTmr
  split
  case isTrue hb => exact p2dRise_lands rfl { hf.full hb with clk := nofun }
  case isFalse hb => exact p2dRise_lands rfl { hf.more rfl hb with clk := nofun, lo := Nat.zero_le _ }

theorem p2dGetParityTmr_lands (h : Stands B .P .p2d .getParity s) : Lands B .P .p2d v s (p2dGetParityTmr s) :=
  p2dFall_lands rfl { h.fits rfl with clk := nofun }

theorem p2dWaitStopTmr_lands (h : Stands B .P .p2d .waitStop s) : Lands B .P .p2d v s (p2dWaitStopTmr s) :=
  p2dTick_lands rfl { h.fits rfl with clk := fun _ hd => by cases hd; rfl, data := rfl }

theorem p2dWaitAckTmr_lands (h : Stands B .P .p2d .waitAck s) : Lands B .P .p2d v s (p2dWaitAckTmr s) :=
  p2dFall_lands rfl { h.fits rfl with clk := nofun }

theorem p2dGetAckTmr_lands (h : Stands B .P .p2d .getAck s) : Lands B .P .p2d v s (p2dGetAckTmr s) := by
  have hf := h.fits rfl
  obtain ⟨-, hold, -⟩ := h.cfg
  let s₁ := releaseLine .ps2Data (releaseLine .ps2Clk s)
  have hrel : Row.FitsAt B ⟨some .rel, .fixed .rel, .off, none, 8, 8, .any⟩ .P s₁ :=
    { hf with clk := fun _ hd => by cases hd; rfl, data := rfl }
  have hp := hrel.push .rx s.p.acc
  have hclk : (push .P .rx s.p.acc s₁).own.ps2Clk = .rel := hp.clk _ rfl
  have hcfg : (push .P .rx s.p.acc s₁).cfg.ps2HoldoffTicks ≠ 0 := by simpa [s₁] using hold
  exact p2dHoldoff_lands rfl rfl
    { hp with
      clk := nofun
      ones := Nat.le_refl _
      lo := Nat.le_refl _
      hi := Nat.le_refl _
      hold := HoldRule.holds_upTo hcfg _
      bound := fun _ _ hk => by cases hk; exact BitVec.le_refl _ } fun hlow => nomatch hclk.symm.trans hlow

end Sys2Proof.Machine
end

section
/-!
PROOF. Where the rules of the PS/2 host land (spec/42_ps2_host.md R111 to R132): each goes from the row of its state
to the row of its next state in the table of R130.
-/

namespace Sys2Proof.Machine

open Sys2Proof

variable {B : Prop} {v : Ev} {s₀ s t : State} {c : St} {r : Row}

theorem p2hStartSend_lands (h : Between .P .rel .rel s) (hh : s.p.hold = 0) :
    Lands B .P .p2h v s₀ (p2hStartSend s) :=
  lands_of_armed (c := .prepStart) rfl rfl rfl
    (Between.fits_zero { h with clk := rfl, bitcnt := rfl, ones := rfl } rfl hh) rfl

theorem p2hCheckForData_lands (ht : timerWithout .P s.tmr = timerWithout .P s₀.tmr) (h : Between .P .rel .rel s)
    (hh : s.p.hold = 0) (hl : level .ps2Clk s₀ = true → level .ps2Clk s = true) :
    Lands B .P .p2h v s₀ (p2hCheckForData s) := by
  unfold p2hCheckForData
  split
  · exact rest_lands rfl ht h (by simpa [clkOf, edgeSeen] using hl) (HoldRule.holds_zero hh) nofun
  · exact p2hStartSend_lands h hh

section Ends

variable {drive : Drive} {data : DataRule} {m : EdgeMode} {k : Option CfgReg} {lo hi : Nat}

theorem p2hTimeout_lands (hr : rowP2h c = some ⟨some .rel, data, m, k, lo, hi, .zero⟩) (h : Stands B .P .p2h c s) :
    Lands B .P .p2h v s (p2hTimeout s) := by
  have hf := h.fits hr
  exact p2hCheckForData_lands rfl ⟨hf.clk _ rfl, rfl, rfl, rfl⟩ (hf.hold_zero rfl) (by simp [level_setOwn_other])

/-- The rows in which the host waits for CLOCK falls with the bit timeout running. -/
theorem p2hArmTimeout_lands (c : St)
    (hr : rowP2h c = some ⟨some drive, data, m, some .ps2hBitTimeoutUs, lo, hi, .zero⟩) (hst : t.p.st = c)
    (ht : t.tmr = { run := true, cnt := t.cfg.ps2hBitTimeoutUs, pend := false, owner := .P })
    (hf : Row.FitsAt B ⟨some drive, data, m, none, lo, hi, .zero⟩ .P t) (hl : level .ps2Clk t = level .ps2Clk s) :
    Lands B .P .p2h v s t :=
  lands_of_armed (e := .p2h) hr hst ht { hf with } (by simp [clkOf, hl])

end Ends

theorem p2hIdleEdge_lands (h : Stands B .P .p2h .idle s) : Lands B .P .p2h v s (p2hIdleEdge s) :=
  p2hArmTimeout_lands .getBit rfl rfl rfl
    { h.fits rfl with ones := Nat.le_refl _, lo := Nat.le_refl _, hi := Nat.zero_le 7 } rfl

theorem p2hGetBitEdge_lands (h : Stands B .P .p2h .getBit s) : Lands B .P .p2h v s (p2hGetBitEdge s) := by
  have hf := h.fits rfl
  have hb : s.p.bitcnt.toNat < 8 := Nat.lt_succ_of_le hf.hi
  have hg := hf.getBit rfl hb
  simp only [p2hGetBitEdge]
  split
  case isTrue hb => exact p2hArmTimeout_lands .getParity rfl rfl rfl { hg.full hb with } rfl
  case isFalse hb => exact p2hArmTimeout_lands .getBit rfl h.st rfl { hg.more rfl hb with lo := Nat.zero_le _ } rfl

theorem p2hGetParityEdge_lands (h : Stands B .P .p2h .getParity s) : Lands B .P .p2h v s (p2hGetParityEdge s) :=
  p2hArmTimeout_lands .waitStop rfl rfl rfl { h.fits rfl with } rfl

theorem p2hWaitStopEdge_lands (h : Stands B .P .p2h .waitStop s) : Lands B .P .p2h v s (p2hWaitStopEdge s) := by
  have hf := h.fits rfl
  have hp : Row.FitsAt B ⟨some .rel, .fixed .rel, .fall, none, 8, 8, .zero⟩ .P s := { hf with }
  exact lands_of_armed (c := .getAck) rfl rfl rfl
    { hp.push .rx s.p.acc with
      data := rfl
      mode := rfl
      ones := Nat.le_refl _
      lo := Nat.le_refl _
      hi := Nat.le_refl _ } rfl

theorem p2hGetAckTmr_lands (h : Stands B .P .p2h .getAck s) : Lands B .P .p2h v s (p2hGetAckTmr s) := by
  have hf := h.fits rfl
  exact p2hCheckForData_lands rfl { hf.between with data := rfl } (hf.hold_zero rfl) (by simp [level_setOwn_other])

theorem p2hPrepStartTmr_lands (h : Stands B .P .p2h .prepStart s) : Lands B .P .p2h .tmr s (p2hPrepStartTmr s) := by
  have hf := h.fits rfl
  have hclk : s.own.ps2Clk = .low := hf.clk _ rfl
  have hlow : level .ps2Clk s = false := by simp [level, LineBank.get, hclk]
  exact ⟨_, { row := rfl
              fits := { hf with clk := fun _ hd => by cases hd; rfl, data := rfl, mode := rfl }
              timed := nofun
              untimed := fun _ => .inr ⟨rfl, nofun⟩
              quiet := by simp [p2hPrepStartTmr, clkOf, hlow, edgeSeen]
              holdoff := nofun }⟩

theorem p2hSendStartEdge_lands (h : Stands B .P .p2h .sendStart s) : Lands B .P .p2h v s (p2hSendStartEdge s) := by
  have hf := h.fits rfl
  obtain ⟨hbit, hones⟩ := hf.counters_zero rfl
  have hd : s.own.get .ps2Data = .low := hf.data
  have hp := hf.putBit (hd ▸ symbol_start hbit hones) (by rw [hbit]; decide)
  exact p2hArmTimeout_lands .sendBit rfl rfl rfl { hp with } (level_clk_putBit .P .P)

theorem p2hSendBitEdge_lands (h : Stands B .P .p2h .sendBit s) : Lands B .P .p2h v s (p2hSendBitEdge s) := by
  have hf := h.fits rfl
  unfold p2hSendBitEdge
  split
  case isTrue hb =>
    have hp := hf.putBit hf.data hb
    have hst : (putBit .P s).p.st = .sendBit := (putBit_st .P).trans h.st
    exact p2hArmTimeout_lands .sendBit rfl hst rfl { hp with } (level_clk_putBit .P .P)
  case isFalse hb =>
    have h8 : s.p.bitcnt = 8 := by have : s.p.bitcnt.toNat ≤ 8 := hf.hi; bv_omega
    have hd := (hf.full h8).driveData (parity_holds hf.data h8)
    exact p2hArmTimeout_lands .sendParity rfl rfl rfl { hd with } (level_clk_driveData .P .P _)

theorem p2hSendParityEdge_lands (h : Stands B .P .p2h .sendParity s) : Lands B .P .p2h v s (p2hSendParityEdge s) :=
  p2hArmTimeout_lands .sendStop rfl rfl rfl { h.fits rfl with data := rfl } rfl

theorem p2hSendStopEdge_lands (h : Stands B .P .p2h .sendStop s) : Lands B .P .p2h v s (p2hSendStopEdge s) := by
  have hf := h.fits rfl
  simp only [p2hSendStopEdge]
  split
  · exact p2hCheckForData_lands rfl ⟨hf.clk _ rfl, hf.data, rfl, rfl⟩ (hf.hold_zero rfl) id
  · exact p2hCheckForData_lands rfl ⟨hf.clk _ rfl, hf.data, rfl, rfl⟩ (hf.hold_zero rfl) id

end Sys2Proof.Machine
end

section
/-!
PROOF. Where the rules of the two XT engines land (spec/44_xt_host.md R181 to R187, 45_xt_device.md R191 to R201).
-/

namespace Sys2Proof.Machine

open Sys2Proof

variable {B : Prop} {v : Ev} {s₀ s t : State} {c : St} {r : Row}

/-! ## XT host -/

theorem xthIdle_lands (ht : timerWithout .X s.tmr = timerWithout .X s₀.tmr) (h : Between .X .rel .rel s)
    (hh : s.x.hold = 0) (hl : level .xtClk s₀ = true → level .xtClk s = true) : Lands B .X .xth v s₀ (xthIdle s) :=
  rest_lands rfl ht h (by simpa [clkOf, edgeSeen] using hl) (HoldRule.holds_zero hh) nofun

/-- Both receive rules (R182, R183) go on with `get_bit()` from a row with less than eight bits. -/
theorem xthGetBitEdge_lands_of_fits (ht : s.tmr = s₀.tmr) (hl : level .xtClk s = level .xtClk s₀)
    (hf : Row.FitsAt B ⟨some .rel, .fixed .rel, .fall, none, 0, 7, .zero⟩ .X s) :
    Lands B .X .xth v s₀ (xthGetBitEdge s) := by
  have hg := hf.getBit rfl (Nat.lt_succ_of_le hf.hi)
  simp only [xthGetBitEdge]
  split
  case isTrue hb =>
    have hp := hg.push .rx (getBit .X s).x.acc
    refine xthIdle_lands ?_ ⟨hp.clk _ rfl, hp.data, rfl, rfl⟩ (hp.hold_zero rfl) ?_
    · simp [getBit_eq, ht]
    · simp [getBit_eq, hl]
  case isFalse hb =>
    exact lands_of_armed (c := .getBit) rfl rfl rfl { hg.more rfl hb with } (by simp [clkOf, getBit_eq, hl])

theorem xthIdleEdge_lands (h : Stands B .X .xth .idle s) : Lands B .X .xth v s (xthIdleEdge s) := by
  have hf := h.fits rfl
  exact xthGetBitEdge_lands_of_fits (s := frameStart .X 0 s) rfl rfl
    { hf with ones := Nat.le_refl _, lo := Nat.le_refl _, hi := Nat.zero_le 7 }

theorem xthGetBitEdge_lands (h : Stands B .X .xth .getBit s) : Lands B .X .xth v s (xthGetBitEdge s) :=
  xthGetBitEdge_lands_of_fits rfl rfl { h.fits rfl with lo := Nat.zero_le _ }

theorem xthGetBitTmr_lands (h : Stands B .X .xth .getBit s) : Lands B .X .xth v s (xthGetBitTmr s) := by
  have hf := h.fits rfl
  exact xthIdle_lands rfl ⟨hf.clk _ rfl, hf.data, rfl, rfl⟩ (hf.hold_zero rfl) id

theorem xthResetTmr_lands (h : Stands B .X .xth .reset s) : Lands B .X .xth v s (xthResetTmr s) := by
  have hf := h.fits rfl
  have hold : s.x.hold ≠ 0 := hf.hold.2 _ rfl
  have hclk : s.own.get .xtClk = .low := hf.clk _ rfl
  simp only [xthResetTmr]
  split
  case isTrue hz => exact xthIdle_lands rfl { hf.between with clk := rfl } hz (by simp [level, hclk])
  case isFalse hne =>
    exact lands_of_armed (c := .reset) rfl h.st rfl
      { hf with
        hold := HoldRule.holds_upTo hne _
        bound := fun hB k hk => Byte.sub_one_le hold (hf.bound hB k hk) } rfl

/-! ## XT device -/

theorem xtdInhibit_lands (h : Between .X .rel .rel s) : Lands B .X .xtd v s₀ (xtdInhibit s) :=
  lands_of_armed (c := .hostInhibit) rfl rfl rfl (Between.fits_any { h with } rfl) rfl

theorem xtdStartSend_lands (h : Between .X .rel .rel s) : Lands B .X .xtd v s₀ (xtdStartSend s) :=
  lands_of_armed (c := .sendStart) rfl rfl rfl
    (Between.fits_any { h with data := rfl, bitcnt := rfl, ones := rfl } rfl) rfl

/-- `hold` = 1 is at most `XT_HOLDOFF_TICKS`, which is not 0 (R29). -/
theorem xtdNotReady_lands (h : Between .X .rel .rel s) (hc : CfgInv s.cfg) :
    Lands B .X .xtd v s₀ (xtdNotReady s) := by
  obtain ⟨-, -, -, -, -, -, -, hticks, -⟩ := hc
  refine lands_of_armed (c := .holdoff) rfl rfl rfl
    (Between.fits { h with } rfl (HoldRule.holds_upTo (by decide : (1 : Byte) ≠ 0) _) fun _ k hk => ?_) rfl
  cases hk
  have hle : (1 : Byte) ≤ s.cfg.xtHoldoffTicks := by bv_omega
  exact hle

theorem xtdCheckBus_lands (ht : timerWithout .X s.tmr = timerWithout .X s₀.tmr) (h : Between .X .rel .rel s)
    (hc : CfgInv s.cfg) : Lands B .X .xtd v s₀ (xtdCheckBus s) := by
  unfold xtdCheckBus
  split
  · exact xtdInhibit_lands h
  · split
    · split
      · exact xtdStartSend_lands h
      · exact xtdNotReady_lands h hc
    · exact rest_lands rfl ht h (by simp_all [clkOf, edgeSeen]) (HoldRule.holds_any _) nofun

theorem xtdAbort_lands (hc : CfgInv s.cfg) : Lands B .X .xtd v s (xtdAbort s) :=
  xtdCheckBus_lands rfl ⟨rfl, rfl, rfl, rfl⟩ hc

theorem xtdIdleEdge_lands (h : Stands B .X .xtd .idle s) : Lands B .X .xtd v s (xtdInhibit s) :=
  xtdInhibit_lands (h.fits rfl).between

theorem xtdSendStartTmr_lands (h : Stands B .X .xtd .sendStart s) : Lands B .X .xtd v s (xtdSendStartTmr s) := by
  have hf := h.fits rfl
  obtain ⟨hbit, hones⟩ := hf.counters_zero rfl
  have hd : s.own.get .xtData = .low := hf.data
  have hp := hf.putBit (hd ▸ symbol_start hbit hones) (by rw [hbit]; decide)
  unfold xtdSendStartTmr
  split
  · exact xtdAbort_lands h.cfg
  · exact lands_of_armed (c := .sendBit) rfl rfl rfl { hp with } rfl

theorem xtdSendBitTmr_lands (h : Stands B .X .xtd .sendBit s) : Lands B .X .xtd v s (xtdSendBitTmr s) := by
  unfold xtdSendBitTmr
  split
  · exact xtdAbort_lands h.cfg
  · exact lands_of_armed (c := .prepBit) rfl rfl rfl { h.fits rfl with clk := fun _ hd => by cases hd; rfl } rfl

theorem xtdPrepBitTmr_lands (h : Stands B .X .xtd .prepBit s) : Lands B .X .xtd v s (xtdPrepBitTmr s) := by
  have hf := h.fits rfl
  obtain ⟨-, -, -, -, -, -, -, hticks, -⟩ := h.cfg
  simp only [xtdPrepBitTmr]
  split
  case isTrue hb =>
    have hr : Row.FitsAt B ⟨some .rel, .symbol, .off, none, 1, 8, .any⟩ .X (releaseLine .xtClk s) :=
      { hf with clk := fun _ hd => by cases hd; rfl }
    exact lands_of_armed (c := .sendBit) rfl rfl rfl { hr.putBit hf.data hb with } rfl
  case isFalse =>
    exact lands_of_armed (c := .holdoff) rfl rfl rfl
      { hf with
        clk := fun _ hd => by cases hd; rfl
        data := rfl
        ones := Nat.le_refl _
        lo := Nat.le_refl _
        hi := Nat.le_refl _
        hold := HoldRule.holds_upTo hticks _
        bound := fun _ _ hk => by cases hk; exact BitVec.le_refl _ } rfl

theorem xtdHoldoffTmr_lands (h : Stands B .X .xtd .holdoff s) : Lands B .X .xtd v s (xtdHoldoffTmr s) := by
  have hf := h.fits rfl
  have hold : s.x.hold ≠ 0 := hf.hold.2 _ rfl
  simp only [xtdHoldoffTmr]
  split
  · exact xtdCheckBus_lands rfl { hf.between with } h.cfg
  case isFalse hne =>
    exact lands_of_armed (c := .holdoff) rfl h.st rfl
      { hf with
        hold := HoldRule.holds_upTo hne _
        bound := fun hB k hk => Byte.sub_one_le hold (hf.bound hB k hk) } rfl

/-- A reset request touches the queues and the trace only. -/
theorem xtdResetRequest_fits (h : r.FitsAt B .X s) : r.FitsAt B .X (xtdResetRequest s) := by
  have hc : r.FitsAt B .X (clear .X .rx (clear .X .tx s)) := { h with }
  exact { hc.push .tx _ with }

theorem xtdResetRequest_st : (xtdResetRequest s).x.st = s.x.st :=
  push_st (clear .X .rx (clear .X .tx s)) .X .tx _

/-- The counting of polls (R199) touches nothing a row without a `hold` entry speaks of. -/
theorem xtdCountInhibit_fits (h : r.FitsAt B .X s) (hr : r.hold = .any) : r.FitsAt B .X (xtdCountInhibit s) := by
  have hh : r.FitsAt B .X (setHold .X (s.x.hold + 1) s) :=
    { h with hold := hr ▸ HoldRule.holds_any _, bound := fun _ k hk => by cases hr.symm.trans hk }
  simp only [xtdCountInhibit]
  split
  · split
    · exact xtdResetRequest_fits hh
    · exact hh
  · exact h

theorem xtdCountInhibit_st : (xtdCountInhibit s).x.st = s.x.st := by
  simp only [xtdCountInhibit]
  split
  · split
    · exact xtdResetRequest_st
    · rfl
  · rfl

theorem xtdHostInhibitTmr_lands (h : Stands B .X .xtd .hostInhibit s) :
    Lands B .X .xtd v s (xtdHostInhibitTmr s) := by
  have hf := h.fits rfl
  unfold xtdHostInhibitTmr
  split
  · exact lands_of_armed (c := .hostInhibit) rfl (xtdCountInhibit_st.trans h.st) rfl
      { xtdCountInhibit_fits hf rfl with } rfl
  · exact xtdCheckBus_lands rfl hf.between h.cfg

end Sys2Proof.Machine
end

section
/-!
PROOF. The 45 transitions are rules (spec/30_encoding.md R69, 10_state.md R12, R31), and the state after reset (R28,
R30).
-/

namespace Sys2Proof.Machine

open Sys2Proof

/-- What every rule is for its triple (engine, `st`, event): it touches its instance only, and from the row of `st` it
lands in the row of its next state. -/
structure IsRule (e : Engine) (c : St) (v : Ev) (body : State → State) : Prop where
  touches : ∀ s, TouchesOnly (engineInst e).1 s (body s)
  lands : ∀ B s, Stands B (engineInst e).1 e c s → Lands B (engineInst e).1 e v s (body s)

/-- A transition's instruction that runs a body under the guard of R12, and the two facts about that body. -/
theorem exists_rule_of_exec {e : Engine} {c : St} {v : Ev} {j' j : Instr} {body : State → State}
    (h : some j' = some j) (hexec : ∀ s, exec j' s = transition (engineInst e).1 (engineInst e).2 c body s)
    (ht : ∀ s, TouchesOnly (engineInst e).1 s (body s))
    (hl : ∀ B s, Stands B (engineInst e).1 e c s → Lands B (engineInst e).1 e v s (body s)) :
    ∃ body, (∀ s, exec j s = transition (engineInst e).1 (engineInst e).2 c body s) ∧ IsRule e c v body := by
  cases h
  exact ⟨body, hexec, ht, hl⟩

/-- Every transition runs a rule while its instance has its role and stands in its state (R12, R69). -/
theorem exists_rule {e : Engine} {c : St} {v : Ev} {j : Instr} (h : transitionOf e c v = some j) :
    ∃ body, (∀ s, exec j s = transition (engineInst e).1 (engineInst e).2 c body s) ∧ IsRule e c v body := by
  cases e <;> cases c <;> cases v
  case p2h.idle.edge =>
    exact exists_rule_of_exec h (fun _ => rfl) TouchesOnly.p2hIdleEdge fun _ _ => p2hIdleEdge_lands
  case p2h.prepStart.tmr =>
    exact exists_rule_of_exec h (fun _ => rfl) TouchesOnly.p2hPrepStartTmr fun _ _ => p2hPrepStartTmr_lands
  case p2h.sendStart.edge =>
    exact exists_rule_of_exec h (fun _ => rfl) TouchesOnly.p2hSendStartEdge fun _ _ => p2hSendStartEdge_lands
  case p2h.sendBit.edge =>
    exact exists_rule_of_exec h (fun _ => rfl) TouchesOnly.p2hSendBitEdge fun _ _ => p2hSendBitEdge_lands
  case p2h.sendBit.tmr =>
    exact exists_rule_of_exec h (fun _ => rfl) TouchesOnly.p2hTimeout fun _ _ => p2hTimeout_lands rfl
  case p2h.sendParity.edge =>
    exact exists_rule_of_exec h (fun _ => rfl) TouchesOnly.p2hSendParityEdge fun _ _ => p2hSendParityEdge_lands
  case p2h.sendParity.tmr =>
    exact exists_rule_of_exec h (fun _ => rfl) TouchesOnly.p2hTimeout fun _ _ => p2hTimeout_lands rfl
  case p2h.sendStop.edge =>
    exact exists_rule_of_exec h (fun _ => rfl) TouchesOnly.p2hSendStopEdge fun _ _ => p2hSendStopEdge_lands
  case p2h.sendStop.tmr =>
    exact exists_rule_of_exec h (fun _ => rfl) TouchesOnly.p2hTimeout fun _ _ => p2hTimeout_lands rfl
  case p2h.getBit.edge =>
    exact exists_rule_of_exec h (fun _ => rfl) TouchesOnly.p2hGetBitEdge fun _ _ => p2hGetBitEdge_lands
  case p2h.getBit.tmr =>
    exact exists_rule_of_exec h (fun _ => rfl) TouchesOnly.p2hTimeout fun _ _ => p2hTimeout_lands rfl
  case p2h.getParity.edge =>
    exact exists_rule_of_exec h (fun _ => rfl) TouchesOnly.p2hGetParityEdge fun _ _ => p2hGetParityEdge_lands
  case p2h.getParity.tmr =>
    exact exists_rule_of_exec h (fun _ => rfl) TouchesOnly.p2hTimeout fun _ _ => p2hTimeout_lands rfl
  case p2h.waitStop.edge =>
    exact exists_rule_of_exec h (fun _ => rfl) TouchesOnly.p2hWaitStopEdge fun _ _ => p2hWaitStopEdge_lands
  case p2h.waitStop.tmr =>
    exact exists_rule_of_exec h (fun _ => rfl) TouchesOnly.p2hTimeout fun _ _ => p2hTimeout_lands rfl
  case p2h.getAck.tmr =>
    exact exists_rule_of_exec h (fun _ => rfl) TouchesOnly.p2hGetAckTmr fun _ _ => p2hGetAckTmr_lands
  case p2d.idle.edge =>
    exact exists_rule_of_exec h (fun _ => rfl) TouchesOnly.p2dIdleEdge fun _ _ => p2dIdleEdge_lands
  case p2d.hostInhibit.edge =>
    exact exists_rule_of_exec h (fun _ => rfl) TouchesOnly.p2dHostInhibitEdge fun _ _ => p2dHostInhibitEdge_lands
  case p2d.prepStart.tmr =>
    exact exists_rule_of_exec h (fun _ => rfl) TouchesOnly.p2dPrepStartTmr fun _ _ => p2dPrepStartTmr_lands
  case p2d.sendStart.tmr =>
    exact exists_rule_of_exec h (fun _ => rfl) TouchesOnly.p2dSendStartTmr fun _ _ => p2dSendStartTmr_lands
  case p2d.prepBit.tmr =>
    exact exists_rule_of_exec h (fun _ => rfl) TouchesOnly.p2dPrepBitTmr fun _ _ => p2dPrepBitTmr_lands
  case p2d.sendBit.tmr =>
    exact exists_rule_of_exec h (fun _ => rfl) TouchesOnly.p2dSendBitTmr fun _ _ => p2dSendBitTmr_lands
  case p2d.prepParity.tmr =>
    exact exists_rule_of_exec h (fun _ => rfl) TouchesOnly.p2dPrepParityTmr fun _ _ => p2dPrepParityTmr_lands
  case p2d.sendParity.tmr =>
    exact exists_rule_of_exec h (fun _ => rfl) TouchesOnly.p2dSendParityTmr fun _ _ => p2dSendParityTmr_lands
  case p2d.prepStop.tmr =>
    exact exists_rule_of_exec h (fun _ => rfl) TouchesOnly.p2dPrepStopTmr fun _ _ => p2dPrepStopTmr_lands
  case p2d.sendStop.tmr =>
    exact exists_rule_of_exec h (fun _ => rfl) TouchesOnly.p2dSendStopTmr fun _ _ => p2dSendStopTmr_lands
  case p2d.holdoff.tmr =>
    exact exists_rule_of_exec h (fun _ => rfl) TouchesOnly.p2dHoldoffTmr fun _ _ => p2dHoldoffTmr_lands
  case p2d.waitStart.tmr =>
    exact exists_rule_of_exec h (fun _ => rfl) TouchesOnly.p2dWaitStartTmr fun _ _ => p2dWaitStartTmr_lands
  case p2d.getStart.tmr =>
    exact exists_rule_of_exec h (fun _ => rfl) TouchesOnly.p2dGetStartTmr fun _ _ => p2dGetStartTmr_lands
  case p2d.waitBit.tmr =>
    exact exists_rule_of_exec h (fun _ => rfl) TouchesOnly.p2dWaitBitTmr fun _ _ => p2dWaitBitTmr_lands
  case p2d.getBit.tmr =>
    exact exists_rule_of_exec h (fun _ => rfl) TouchesOnly.p2dGetBitTmr fun _ _ => p2dGetBitTmr_lands
  case p2d.getParity.tmr =>
    exact exists_rule_of_exec h (fun _ => rfl) TouchesOnly.p2dGetParityTmr fun _ _ => p2dGetParityTmr_lands
  case p2d.waitStop.tmr =>
    exact exists_rule_of_exec h (fun _ => rfl) TouchesOnly.p2dWaitStopTmr fun _ _ => p2dWaitStopTmr_lands
  case p2d.waitAck.tmr =>
    exact exists_rule_of_exec h (fun _ => rfl) TouchesOnly.p2dWaitAckTmr fun _ _ => p2dWaitAckTmr_lands
  case p2d.getAck.tmr =>
    exact exists_rule_of_exec h (fun _ => rfl) TouchesOnly.p2dGetAckTmr fun _ _ => p2dGetAckTmr_lands
  case xth.idle.edge =>
    exact exists_rule_of_exec h (fun _ => rfl) TouchesOnly.xthIdleEdge fun _ _ => xthIdleEdge_lands
  case xth.getBit.edge =>
    exact exists_rule_of_exec h (fun _ => rfl) (fun s => (TouchesOnly.refl .X s).xthGetBitEdge (.inl rfl))
      fun _ _ => xthGetBitEdge_lands
  case xth.getBit.tmr =>
    exact exists_rule_of_exec h (fun _ => rfl) TouchesOnly.xthGetBitTmr fun _ _ => xthGetBitTmr_lands
  case xth.reset.tmr =>
    exact exists_rule_of_exec h (fun _ => rfl) TouchesOnly.xthResetTmr fun _ _ => xthResetTmr_lands
  case xtd.idle.edge =>
    exact exists_rule_of_exec h (fun _ => rfl) (fun s => (TouchesOnly.refl .X s).xtdInhibit)
      fun _ _ => xtdIdleEdge_lands
  case xtd.hostInhibit.tmr =>
    exact exists_rule_of_exec h (fun _ => rfl) TouchesOnly.xtdHostInhibitTmr fun _ _ => xtdHostInhibitTmr_lands
  case xtd.sendStart.tmr =>
    exact exists_rule_of_exec h (fun _ => rfl) TouchesOnly.xtdSendStartTmr fun _ _ => xtdSendStartTmr_lands
  case xtd.prepBit.tmr =>
    exact exists_rule_of_exec h (fun _ => rfl) TouchesOnly.xtdPrepBitTmr fun _ _ => xtdPrepBitTmr_lands
  case xtd.sendBit.tmr =>
    exact exists_rule_of_exec h (fun _ => rfl) TouchesOnly.xtdSendBitTmr fun _ _ => xtdSendBitTmr_lands
  case xtd.holdoff.tmr =>
    exact exists_rule_of_exec h (fun _ => rfl) TouchesOnly.xtdHoldoffTmr fun _ _ => xtdHoldoffTmr_lands
  all_goals cases h

/-- Settles O9: every transition is a rule under the guard of R12. -/
theorem transitionCompletesInItsState : Obligations.TransitionCompletesInItsState := by
  intro e c v j hj s
  obtain ⟨body, hexec, -⟩ := exists_rule hj
  rw [hexec]
  exact ⟨fun ⟨hr, hc⟩ => ⟨_, transition_enabled s body hr hc⟩, transition_disabled s body⟩

/-- A transition that completes found its instance in its role and state, and ran its rule. -/
theorem transition_next {i : Inst} {r : Role} {c : St} {body : State → State} {s t : State}
    (h : transition i r c body s = .next t) : (s.inst i).role = r ∧ (s.inst i).st = c ∧ t = body s := by
  unfold transition at h
  split at h
  case isTrue hrc => cases h; exact ⟨hrc.1, hrc.2, rfl⟩
  case isFalse => cases h

/-- Settles O56: every transition is a rule, and rules touch only their instance. -/
theorem handlersTouchOnlyTheirInstance : Obligations.HandlersTouchOnlyTheirInstance := by
  intro e c v j s t hj ht
  obtain ⟨body, hexec, hrule⟩ := exists_rule hj
  obtain ⟨-, -, rfl⟩ := transition_next (hexec s ▸ ht)
  have h := hrule.touches s
  exact ⟨h.other, h.role, h.own, h.ackSeen, h.owner, h.ext, h.cfg, h.now, h.ret, h.refused, h.script, h.slots⟩

/-- Settles O50. -/
theorem resetState : Obligations.ResetState := by
  refine ⟨fun i => ?_, rfl, fun l => ?_, rfl, rfl, rfl, ?_⟩
  · cases i <;> exact ⟨rfl, rfl, rfl, rfl, rfl, rfl, rfl, rfl, fun d => by cases d <;> exact ⟨rfl, rfl⟩⟩
  · cases l <;> rfl
  · unfold Interoperable; decide

/-- Settles O51. -/
theorem invariantAtReset : Obligations.InvariantAtReset := by
  refine ⟨⟨?_, ?_, ?_, ?_, ?_, ?_, ?_⟩, fun i => ⟨?_, ?_, ?_⟩⟩
  · exact ⟨by decide, by decide, by decide, rfl⟩
  · exact ⟨by decide, by decide, by decide, rfl⟩
  · unfold TimerInv; decide
  · unfold CfgInv; decide
  · exact ⟨3, rfl⟩
  · exact ⟨by decide, by decide, by decide, by decide⟩
  · unfold AtMostOne; decide
  · exact fun _ => by cases i <;> exact ⟨rfl, rfl⟩
  · intro r hr; cases i <;> cases hr
  · intro r hr; cases i <;> cases hr

end Sys2Proof.Machine
end

section
/-!
PROOF. The invariant of one instance in the terms of the rows, and under R99 (spec/10_state.md R28, 41_timer_edge.md
R99).
-/

namespace Sys2Proof.Machine

open Sys2Proof

/-! ## The last effect of a step -/

section DetectEdges

variable (before s : State)

theorem detectEdge_eq (i : Inst) (b : Bool) : detectEdge i b s = s.modInst i
    (fun w => { w with edgePend := w.edgePend || edgeSeen w.edgeMode b (level (clkOf i) s) }) := by
  unfold detectEdge
  split
  case isTrue h => cases i <;> simp_all [State.modInst]
  case isFalse h => cases i <;> simp_all [State.modInst]

@[simp] theorem detectEdges_inst (i : Inst) : (detectEdges before s).inst i = { s.inst i with
    edgePend := (s.inst i).edgePend || edgeSeen (s.inst i).edgeMode (level (clkOf i) before) (level (clkOf i) s) } := by
  cases i <;> simp [detectEdges, detectEdge_eq]

@[simp] theorem detectEdges_p : (detectEdges before s).p = { s.p with
    edgePend := s.p.edgePend || edgeSeen s.p.edgeMode (level .ps2Clk before) (level .ps2Clk s) } :=
  detectEdges_inst before s .P
@[simp] theorem detectEdges_x : (detectEdges before s).x = { s.x with
    edgePend := s.x.edgePend || edgeSeen s.x.edgeMode (level .xtClk before) (level .xtClk s) } :=
  detectEdges_inst before s .X
@[simp] theorem detectEdges_own : (detectEdges before s).own = s.own := by simp [detectEdges, detectEdge_eq]
@[simp] theorem detectEdges_tmr : (detectEdges before s).tmr = s.tmr := by simp [detectEdges, detectEdge_eq]
@[simp] theorem detectEdges_cfg : (detectEdges before s).cfg = s.cfg := by simp [detectEdges, detectEdge_eq]
@[simp] theorem detectEdges_slots : (detectEdges before s).slots = s.slots := by simp [detectEdges, detectEdge_eq]

end DetectEdges

variable {s t : State} {i : Inst} {e : Engine} {c : St} {r : Row}

/-! ## The rows -/

/-- Every countdown an engine waits for comes from a register that is never 0 (R29). -/
theorem zeroReserved_of_timer {k : CfgReg} (hr : rowOf e c = some r) (hk : r.timer = some k) :
    zeroReserved k = true := by
  cases e <;> cases c <;> cases hr <;> cases hk <;> rfl

theorem CfgInv.get_ne_zero {b : CfgBank} (h : CfgInv b) {k : CfgReg} (hk : zeroReserved k = true) : b.get k ≠ 0 := by
  obtain ⟨h0, h1, h2, h3, h4, h5, h6, h7, h8, h9, h10, -⟩ := h
  cases k
  case xtBatCode | options => cases hk
  all_goals assumption

/-- No row counts beyond the eight bits of a frame. -/
theorem bitHi_le (hr : rowOf e c = some r) : r.bitHi ≤ 8 := by
  cases e <;> cases c <;> cases hr <;> decide

/-- The row of an instance's table, with the timer: what `Row.holds` says besides the counters. -/
theorem Row.holds_iff (ho : (s.inst i).ones.toNat ≤ (s.inst i).bitcnt.toNat) : r.holds i s ↔
    r.FitsAt False i s ∧ (r.timer = none → s.tmr.owner ≠ ownerOf i) ∧
    (r.timer ≠ none → s.tmr.owner = ownerOf i ∨ (s.inst (otherInst i)).role ≠ .none) := by
  constructor
  · rintro ⟨hclk, hdata, hmode, hun, htm, hlo, hhi, hhold⟩
    exact ⟨⟨hclk, hdata, hmode, ho, hlo, hhi, hhold, nofun⟩, hun, htm⟩
  · rintro ⟨⟨hclk, hdata, hmode, -, hlo, hhi, hhold, -⟩, hun, htm⟩
    exact ⟨hclk, hdata, hmode, hun, htm, hlo, hhi, hhold⟩

/-! ## `InstInv` with and without a role -/

theorem engineOf_eq_none {ρ : Role} : engineOf i ρ = none ↔ ρ = .none := by
  cases i <;> cases ρ <;> simp [engineOf]

theorem role_ne_none (he : engineOf i (s.inst i).role = some e) : (s.inst i).role ≠ .none := by
  intro h
  rw [engineOf_eq_none.mpr h] at he
  cases he

theorem instInv_of_role_none (h : (s.inst i).role = .none) : InstInv i s ↔
    (s.inst i).bitcnt.toNat ≤ 8 ∧ (s.inst i).ones.toNat ≤ (s.inst i).bitcnt.toNat ∧
    s.tmr.owner ≠ ownerOf i ∧ (s.inst i).st = .idle := by
  unfold InstInv
  rw [engineOf_eq_none.mpr h]

theorem instInv_of_engine (he : engineOf i (s.inst i).role = some e) : InstInv i s ↔
    (∃ r, rowOf e (s.inst i).st = some r ∧ r.FitsAt False i s ∧ (r.timer = none → s.tmr.owner ≠ ownerOf i) ∧
      (r.timer ≠ none → s.tmr.owner = ownerOf i ∨ (s.inst (otherInst i)).role ≠ .none)) ∧
    ((s.inst i).edgePend = true → (s.inst i).edgeMode ≠ .off) := by
  unfold InstInv
  rw [he]
  constructor
  · rintro ⟨-, hones, hrow, hpend⟩
    refine ⟨?_, hpend⟩
    cases hr : rowOf e (s.inst i).st with
    | none => rw [hr] at hrow; exact hrow.elim
    | some r => rw [hr] at hrow; exact ⟨r, rfl, (Row.holds_iff hones).mp hrow⟩
  · rintro ⟨⟨r, hr, hf, htm⟩, hpend⟩
    refine ⟨Nat.le_trans hf.hi (bitHi_le hr), hf.ones, ?_, hpend⟩
    simp only [hr]
    exact (Row.holds_iff hf.ones).mpr ⟨hf, htm⟩

/-- The upper bounds claimed, an instance with a role stands in its state. -/
theorem InstInv.stands {B : Prop} (h : InstInv i s) (he : engineOf i (s.inst i).role = some e) (hc : CfgInv s.cfg)
    (hb : B → Bounded i s) : Stands B i e (s.inst i).st s := by
  obtain ⟨⟨r, hr, hf, hun, -⟩, -⟩ := (instInv_of_engine he).mp h
  have hat : rowAt i s = some r := by simp [rowAt, he, hr]
  exact ⟨rfl, ⟨r, hr, { hf with bound := fun hB => (hb hB r hat).2 }, hun⟩, hc⟩

/-! ## What leaves an instance alone -/

/-- The registers of the instance are as before, and, if it has a role, its detector and its lines. -/
structure Undisturbed (i : Inst) (s t : State) : Prop where
  role : (t.inst i).role = (s.inst i).role
  st : (t.inst i).st = (s.inst i).st
  acc : (t.inst i).acc = (s.inst i).acc
  bitcnt : (t.inst i).bitcnt = (s.inst i).bitcnt
  ones : (t.inst i).ones = (s.inst i).ones
  hold : (t.inst i).hold = (s.inst i).hold
  mode : (s.inst i).role ≠ .none → (t.inst i).edgeMode = (s.inst i).edgeMode
  pend : (s.inst i).role ≠ .none → (t.inst i).edgePend = (s.inst i).edgePend
  clk : (s.inst i).role ≠ .none → t.own.get (clkOf i) = s.own.get (clkOf i)
  data : (s.inst i).role ≠ .none → t.own.get (dataOf i) = s.own.get (dataOf i)

theorem Undisturbed.refl (i : Inst) (s : State) : Undisturbed i s s := by constructor <;> simp

theorem otherInst_clk_ne (i : Inst) : clkOf (otherInst i) ≠ clkOf i := by cases i <;> decide

theorem otherInst_data_ne (i : Inst) : dataOf (otherInst i) ≠ dataOf i := by cases i <;> decide

/-- A rule leaves the other instance alone (R31). -/
theorem TouchesOnly.undisturbed (h : TouchesOnly i s t) : Undisturbed (otherInst i) s t := by
  have hclk := h.own _ (otherInst_clk_ne i) (clkOf_ne_dataOf _ _)
  have hdata := h.own _ (clkOf_ne_dataOf _ _).symm (otherInst_data_ne i)
  constructor <;> simp [h.other, hclk, hdata]

theorem DataRule.holds_congr {d : DataRule} {b : Drive} {v w : InstState} (h : d.holds b v) (ha : w.acc = v.acc)
    (hb : w.bitcnt = v.bitcnt) (ho : w.ones = v.ones) : d.holds b w := by
  cases d <;> simpa [DataRule.holds, Sends, ha, hb, ho] using h

theorem Undisturbed.fits (hu : Undisturbed i s t) (hn : (s.inst i).role ≠ .none) (h : r.FitsAt False i s) :
    r.FitsAt False i t where
  clk := by rw [hu.clk hn]; exact h.clk
  data := by rw [hu.data hn]; exact DataRule.holds_congr h.data hu.acc hu.bitcnt hu.ones
  mode := by rw [hu.mode hn]; exact h.mode
  ones := by rw [hu.ones, hu.bitcnt]; exact h.ones
  lo := by rw [hu.bitcnt]; exact h.lo
  hi := by rw [hu.bitcnt]; exact h.hi
  hold := by rw [hu.hold]; exact h.hold
  bound := nofun

/-- The invariant of an instance that is left alone, if the timer is not pressed on it, and taken from it only by one
that has a role. -/
theorem Undisturbed.instInv (hu : Undisturbed i s t) (h : InstInv i s)
    (hno : s.tmr.owner ≠ ownerOf i → t.tmr.owner ≠ ownerOf i)
    (hyes : s.tmr.owner = ownerOf i ∨ (s.inst (otherInst i)).role ≠ .none →
      t.tmr.owner = ownerOf i ∨ (t.inst (otherInst i)).role ≠ .none) : InstInv i t := by
  cases he : engineOf i (s.inst i).role with
  | none =>
    have hn : (s.inst i).role = .none := engineOf_eq_none.mp he
    obtain ⟨hbit, hones, hown, hst⟩ := (instInv_of_role_none hn).mp h
    exact (instInv_of_role_none (hu.role.trans hn)).mpr
      ⟨by rwa [hu.bitcnt], by rwa [hu.ones, hu.bitcnt], hno hown, hu.st.trans hst⟩
  | some e =>
    have hn := role_ne_none he
    obtain ⟨⟨r, hr, hf, hun, htm⟩, hpend⟩ := (instInv_of_engine he).mp h
    refine (instInv_of_engine (e := e) (by rwa [hu.role])).mpr
      ⟨⟨r, by rwa [hu.st], hu.fits hn hf, fun hk => hno (hun hk), fun hk => hyes (htm hk)⟩, ?_⟩
    rwa [hu.pend hn, hu.mode hn]

/-- R99 sets no pending bit of a detector that is off. -/
theorem InstInv.detectEdges (before : State) (h : InstInv i s) : InstInv i (detectEdges before s) := by
  cases he : engineOf i (s.inst i).role with
  | none =>
    have hn : (s.inst i).role = .none := engineOf_eq_none.mp he
    exact (instInv_of_role_none (by simpa using hn)).mpr (by simpa using (instInv_of_role_none hn).mp h)
  | some e =>
    obtain ⟨⟨r, hr, hf, hun, htm⟩, hpend⟩ := (instInv_of_engine he).mp h
    refine (instInv_of_engine (e := e) (by simpa using he)).mpr ⟨⟨r, by simpa using hr, ?_, ?_, ?_⟩, ?_⟩
    · simp only [Row.FitsAt, detectEdges_own, detectEdges_inst, detectEdges_cfg]
      exact { hf with }
    · simpa using hun
    · simpa using htm
    · simp only [detectEdges_inst, Bool.or_eq_true]
      rintro (hp | hseen) hoff
      · exact hpend hp hoff
      · rw [hoff] at hseen; cases hseen

end Sys2Proof.Machine
end

section
/-!
PROOF. What a rule leaves (spec/10_state.md R28, 60_exceptions.md R250): from a state with the invariant, the
notification being taken, it keeps the invariant, raises no notification, and keeps what `TablesAcrossSteps` says of
timers and bounds.
-/

namespace Sys2Proof.Machine

open Sys2Proof

variable {B : Prop} {s t before : State} {i : Inst} {e : Engine} {v : Ev} {r : Row}

@[simp] theorem ownerInst_ownerOf (i : Inst) : ownerInst (ownerOf i) = some i := by cases i <;> rfl

theorem ownerOf_of_ownerInst {o : Owner} (h : ownerInst o = some i) : o = ownerOf i := by
  cases o <;> cases h <;> rfl

theorem ownerOf_ne_none (i : Inst) : ownerOf i ≠ .none := by cases i <;> nofun

theorem ownerOf_ne_other (i : Inst) : ownerOf i ≠ ownerOf (otherInst i) := by cases i <;> nofun

/-! ## The timer after a rule -/

theorem timerInv_armed {d : Byte} (h : d ≠ 0) (i : Inst) :
    TimerInv { run := true, cnt := d, pend := false, owner := ownerOf i } := by
  exact ⟨by simp [ownerOf_ne_none], by simp, fun _ => h⟩

theorem timerWithout_owner_ne (i : Inst) (τ : Timer) : (timerWithout (ownerOf i) τ).owner ≠ ownerOf i := by
  unfold timerWithout
  split
  · exact (ownerOf_ne_none i).symm
  · assumption

theorem TimerInv.without {τ : Timer} (h : TimerInv τ) (c : Owner) : TimerInv (timerWithout c τ) := by
  unfold timerWithout
  split
  · simp [TimerInv]
  · exact h

/-- A rule leaves the timer alone, gives up its instance's, or arms it. -/
theorem LandsIn.tmr_cases (h : LandsIn B i e v r s t) : t.tmr = s.tmr ∨ t.tmr = timerWithout (ownerOf i) s.tmr ∨
    ∃ k, r.timer = some k ∧ t.tmr = { run := true, cnt := t.cfg.get k, pend := false, owner := ownerOf i } := by
  cases hk : r.timer with
  | some k => exact .inr (.inr ⟨k, rfl, h.timed k hk⟩)
  | none => exact (h.untimed hk).elim (fun h => .inr (.inl h)) fun h => .inl h.1

theorem LandsIn.timerInv (h : LandsIn B i e v r s t) (ht : TimerInv s.tmr) (hc : CfgInv t.cfg) : TimerInv t.tmr := by
  rcases h.tmr_cases with h' | h' | ⟨k, hk, h'⟩ <;> rw [h']
  · exact ht
  · exact ht.without _
  · exact timerInv_armed (hc.get_ne_zero (zeroReserved_of_timer h.row hk)) i

/-- No rule makes a timer notification deliverable. -/
theorem LandsIn.tmrDeliverable (h : LandsIn B i e v r s t) (ht : tmrDeliverable s = false) :
    tmrDeliverable t = false := by
  unfold Machine.tmrDeliverable at *
  rcases h.tmr_cases with h' | h' | ⟨k, -, h'⟩ <;> rw [h']
  · exact ht
  · unfold timerWithout
    split
    · rfl
    · exact ht
  · rfl

/-- In a row that waits for no timer the instance owns none. -/
theorem LandsIn.owner_ne (h : LandsIn B i e v r s t) (hk : r.timer = none)
    (ho : v = .tmr → s.tmr.owner ≠ ownerOf i) : t.tmr.owner ≠ ownerOf i := by
  rcases h.untimed hk with h' | ⟨h', hedge⟩ <;> rw [h']
  · exact timerWithout_owner_ne i _
  · cases v
    · exact hedge rfl
    · exact ho rfl

/-- A timer of the other instance that is still there has not been touched. -/
theorem LandsIn.tmr_of_other (h : LandsIn B i e v r s t) (ho : t.tmr.owner = ownerOf (otherInst i)) :
    t.tmr = s.tmr := by
  rcases h.tmr_cases with h' | h' | ⟨k, -, h'⟩
  · exact h'
  · rw [h'] at ho ⊢
    unfold timerWithout at *
    split at ho
    · exact absurd ho.symm (ownerOf_ne_none _)
    case isFalse hne => rw [if_neg hne]
  · rw [h'] at ho
    exact absurd ho (ownerOf_ne_other i)

/-! ## The invariant after a rule -/

theorem Lands.instInv (hl : Lands False i e v s t) (he : engineOf i (t.inst i).role = some e)
    (ho : v = .tmr → s.tmr.owner ≠ ownerOf i) (hp : (t.inst i).edgePend = false) : InstInv i t := by
  obtain ⟨r, h⟩ := hl
  refine (instInv_of_engine he).mpr ⟨⟨r, h.row, h.fits, fun hk => h.owner_ne hk ho, fun hk => .inl ?_⟩, by simp [hp]⟩
  obtain ⟨k, hk⟩ := Option.ne_none_iff_exists'.mp hk
  rw [h.timed k hk]

theorem TouchesOnly.instInv_other (hf : TouchesOnly i s t) (hn : (t.inst i).role ≠ .none)
    (h : InstInv (otherInst i) s) (hno : t.tmr.owner = ownerOf (otherInst i) → t.tmr = s.tmr) :
    InstInv (otherInst i) t := by
  refine hf.undisturbed.instInv h (fun hs ht => hs ?_) fun _ => .inr (by simpa using hn)
  rw [← hno ht, ht]

theorem TouchesOnly.queuesWf (hf : TouchesOnly i s t) (h : QueuesWf s) : QueuesWf t := by
  have hown := hf.queues
  have hother := hf.other
  obtain ⟨hptx, hprx, hxtx, hxrx⟩ := h
  unfold QueuesWf
  rw [hf.slots]
  cases i with
  | P =>
    have hx : t.x = s.x := hother
    exact ⟨hown .tx hptx, hown .rx hprx, hx ▸ hxtx, hx ▸ hxrx⟩
  | X =>
    have hp : t.p = s.p := hother
    exact ⟨hp ▸ hptx, hp ▸ hprx, hown .tx hxtx, hown .rx hxrx⟩

theorem deliverable_none_of_inst (i : Inst) (hi : edgeDeliverable i s = false)
    (ho : edgeDeliverable (otherInst i) s = false) (ht : tmrDeliverable s = false) : deliverable s = none := by
  rw [deliverable_none_iff]
  cases i
  · exact ⟨hi, ho, ht⟩
  · exact ⟨ho, hi, ht⟩

theorem atMostOne_of_none (h : deliverable s = none) : AtMostOne s := by
  obtain ⟨hp, hx, ht⟩ := (deliverable_none_iff s).mp h
  simp [AtMostOne, hp, hx, ht]

/-- A rule that starts with nothing deliverable keeps the invariant and raises no notification. -/
theorem TouchesOnly.blockInv (hf : TouchesOnly i s t) (hl : Lands False i e v s t)
    (he : engineOf i (s.inst i).role = some e) (hother : InstInv (otherInst i) s) (htmr : TimerInv s.tmr)
    (hcfg : CfgInv s.cfg) (hslots : SlotsInv s.slots) (hqueues : QueuesWf s)
    (ho : v = .tmr → s.tmr.owner ≠ ownerOf i) (hp : (t.inst i).edgePend = false)
    (hpo : edgeDeliverable (otherInst i) s = false) (hdt : tmrDeliverable s = false) :
    BlockInv t ∧ deliverable t = none := by
  have he' : engineOf i (t.inst i).role = some e := by rwa [hf.role]
  have hi := hl.instInv he' ho hp
  obtain ⟨r, hland⟩ := hl
  have hx := hf.instInv_other (role_ne_none he') hother hland.tmr_of_other
  have hc : CfgInv t.cfg := by rwa [hf.cfg]
  have hd : deliverable t = none := by
    refine deliverable_none_of_inst i (by simp [edgeDeliverable, hp]) ?_ (hland.tmrDeliverable hdt)
    unfold edgeDeliverable at *
    rwa [hf.other]
  have hboth : InstInv .P t ∧ InstInv .X t := by
    cases i
    · exact ⟨hi, hx⟩
    · exact ⟨hx, hi⟩
  exact ⟨⟨hboth.1, hboth.2, hland.timerInv htmr hc, hc, by rwa [hf.slots], hf.queuesWf hqueues,
    atMostOne_of_none hd⟩, hd⟩

/-- R99 sees nothing after a rule (R250). -/
theorem TouchesOnly.detectEdges (hf : TouchesOnly i s t) (hl : Lands B i e v s t)
    (hlev : ∀ j, level (clkOf j) before = level (clkOf j) s) : Machine.detectEdges before t = t := by
  obtain ⟨r, hland⟩ := hl
  refine detectEdges_of_unseen t before fun j => ?_
  rw [hlev j]
  rcases inst_cases i j with rfl | rfl
  · exact hland.quiet
  · have hlevel : level (clkOf (otherInst i)) t = level (clkOf (otherInst i)) s := by
      unfold level
      rw [hf.own _ (otherInst_clk_ne i) (clkOf_ne_dataOf _ _), hf.ext]
    rw [hlevel, edgeSeen_same]

end Sys2Proof.Machine
end

section
/-!
PROOF. Everything an operation can do (spec/00_scope.md R6): a transition alone, a handler step, or a step of the
foreground or the environment, which either leaves both instances' engines alone (`Calm`) or runs one engine
(`Acts`).
-/

namespace Sys2Proof.Machine

open Sys2Proof

variable {j : Instr} {s t u : State} {i : Inst}

/-! ## Steps that run no engine -/

/-- The drive of the line is what `j`, a LINE command of that very line, makes it (R87, R88). -/
def DrivenBy (j : Instr) (l : Line) (t : State) : Prop :=
  ∃ b, lineOfId b.toNat = some l ∧ (j = .lineAssert b ∧ t.own.get l = .low ∨ j = .lineRelease b ∧ t.own.get l = .rel)

/-- The operation `j` leads from `s` to `t` without running an engine: both instances are undisturbed, and what it
changes besides keeps its part of the invariant. -/
structure Calm (j : Instr) (s t : State) : Prop where
  undisturbed : ∀ i, Undisturbed i s t
  mode : ∀ i, (t.inst i).edgeMode = (s.inst i).edgeMode ∨ ∃ m, j = .edgeSet i m
  own : ∀ l, t.own.get l = s.own.get l ∨ DrivenBy j l t
  owner : ∀ i, t.tmr.owner = ownerOf i ↔ s.tmr.owner = ownerOf i
  count : ∀ i, TimerInv s.tmr → t.tmr.owner = ownerOf i → t.tmr.cnt ≤ s.tmr.cnt
  timer : TimerInv s.tmr → TimerInv t.tmr
  cfg : CfgInv s.cfg → CfgInv t.cfg
  slots : t.slots = s.slots
  queues : QueuesWf s → QueuesWf t
  still : (∀ i, (s.inst i).role ≠ .none → level (clkOf i) t = level (clkOf i) s) ∨
    t.tmr = s.tmr ∧ ∃ l, ∀ m, m ≠ l → level m t = level m s

namespace Calm

theorem refl (j : Instr) (s : State) : Calm j s s where
  undisturbed i := Undisturbed.refl i s
  mode _ := .inl rfl
  own _ := .inl rfl
  owner _ := Iff.rfl
  count _ _ _ := BitVec.le_refl _
  timer := id
  cfg := id
  slots := rfl
  queues := id
  still := .inl fun _ _ => rfl

theorem answer (h : Calm j s t) (a : Byte) : Calm j s (answer a t) :=
  { h with undisturbed i := { h.undisturbed i with } }

theorem refuse (j : Instr) (s : State) : Calm j s (refuse s) :=
  { refl j s with undisturbed i := { Undisturbed.refl i s with } }

theorem play (j : Instr) (s : State) (codes : List Code) : Calm j s (play codes s) :=
  { refl j s with undisturbed i := { Undisturbed.refl i s with } }

/-- A new timer, whose owner is an engine only if it was that before. -/
theorem setTimer (j : Instr) (s : State) (n : Nat) {τ : Timer} (ho : ∀ i, τ.owner = ownerOf i ↔ s.tmr.owner = ownerOf i)
    (hc : ∀ i, TimerInv s.tmr → τ.owner = ownerOf i → τ.cnt ≤ s.tmr.cnt) (ht : TimerInv s.tmr → TimerInv τ) :
    Calm j s { s with tmr := τ, now := n } :=
  { refl j s with undisturbed i := { Undisturbed.refl i s with }, owner := ho, count := hc, timer := ht,
                  still := .inl fun _ _ => rfl }

/-- A queue operation that keeps the queue well formed. -/
theorem setQueue (j : Instr) (s : State) (i : Inst) (d : Dir) {q : Queue}
    (hq : ((s.inst i).queue d).wf s.slots → q.wf s.slots) : Calm j s (setQueue i d q s) where
  __ := refl j s
  undisturbed k := by cases i <;> cases d <;> cases k <;> constructor <;> intros <;> rfl
  mode k := by cases i <;> cases d <;> cases k <;> exact .inl rfl
  owner := by cases i <;> exact fun _ => Iff.rfl
  count _ _ _ := by cases i <;> exact BitVec.le_refl _
  timer := by cases i <;> exact id
  cfg := by cases i <;> exact id
  slots := by cases i <;> rfl
  own _ := by cases i <;> exact .inl rfl
  still := .inl fun _ _ => by simp
  queues := by
    rintro ⟨hptx, hprx, hxtx, hxrx⟩
    cases i <;> cases d
    · exact ⟨hq hptx, hprx, hxtx, hxrx⟩
    · exact ⟨hptx, hq hprx, hxtx, hxrx⟩
    · exact ⟨hptx, hprx, hq hxtx, hxrx⟩
    · exact ⟨hptx, hprx, hxtx, hq hxrx⟩

/-- `push` without the engine's being started. -/
theorem push (j : Instr) (s : State) (i : Inst) (d : Dir) (a : Byte) : Calm j s (push i d a s) := by
  unfold Machine.push
  split
  · exact { refl j s with undisturbed i := { Undisturbed.refl i s with } }
  · exact setQueue j s i d (Queue.wf_put _ a)

theorem setExt (j : Instr) (s : State) (l : Line) (d : Drive) : Calm j s (setExt l d s) where
  __ := refl j s
  undisturbed i := { Undisturbed.refl i s with }
  still := .inr ⟨rfl, l, fun _ hm => level_setExt_other s d hm⟩

end Calm

/-- The registers of a `cfg` write stay legal (R29, R219). -/
theorem CfgInv.set {b : CfgBank} (h : CfgInv b) {k : CfgReg} {a : Byte} (ha : ¬(zeroReserved k = true ∧ a = 0)) :
    CfgInv (b.set k (cfgStored k a)) := by
  obtain ⟨h0, h1, h2, h3, h4, h5, h6, h7, h8, h9, h10, h11⟩ := h
  cases k
  case options =>
    have hbits : a &&& 1 &&& 0xFE = 0 := by simp [BitVec.and_assoc]
    exact ⟨h0, h1, h2, h3, h4, h5, h6, h7, h8, h9, h10, hbits⟩
  case xtBatCode => exact ⟨h0, h1, h2, h3, h4, h5, h6, h7, h8, h9, h10, h11⟩
  all_goals
    have ha : a ≠ 0 := fun h => ha ⟨rfl, h⟩
    simp only [CfgInv, CfgBank.set, cfgStored]
    tauto

/-- A line that is no engine's is none of an instance with a role (R85). -/
theorem role_none_of_not_lineOwned {l : Line} (h : lineOwned l s = false) (hi : instOfLine l = some i) :
    (s.inst i).role = .none := by
  simpa [lineOwned, hi] using h

theorem instOfLine_clk (i : Inst) : instOfLine (clkOf i) = some i := by cases i <;> rfl

theorem instOfLine_data (i : Inst) : instOfLine (dataOf i) = some i := by cases i <;> rfl

/-- Driving a line that no engine owns disturbs no instance with a role. -/
theorem calm_setOwn {l : Line} {d : Drive} (h : lineOwned l s = false) (hj : DrivenBy j l (setOwn l d s)) :
    Calm j s (setOwn l d s) := by
  have hne : ∀ {i m}, instOfLine m = some i → (s.inst i).role ≠ .none → m ≠ l := by
    rintro i m hm hn rfl
    exact hn (role_none_of_not_lineOwned h hm)
  exact
    { Calm.refl j s with
      undisturbed := fun i =>
        { Undisturbed.refl i s with
          clk := fun hn => LineBank.get_set_other _ _ (hne (instOfLine_clk i) hn)
          data := fun hn => LineBank.get_set_other _ _ (hne (instOfLine_data i) hn) }
      own := fun m => by
        by_cases hm : m = l
        · exact .inr (hm ▸ hj)
        · exact .inl (LineBank.get_set_other _ _ hm)
      still := .inl fun i hn => level_setOwn_other s d (hne (instOfLine_clk i) hn) }

/-! ### The commands and events that run no engine -/

theorem calm_lineCommand {b : Byte} {act : Line → State → State} {d : Drive} (hact : ∀ l, act l s = setOwn l d s)
    (hj : ∀ l, lineOfId b.toNat = some l → DrivenBy j l (setOwn l d s)) : Calm j s (lineCommand b act s) := by
  unfold lineCommand
  split
  case h_1 l hl =>
    split
    · exact Calm.refuse j s
    case isFalse hown => rw [hact]; exact (calm_setOwn (by simpa using hown) (hj l hl)).answer 0
  case h_2 => exact Calm.refuse j s

theorem calm_lineReadCommand (b : Byte) : Calm j s (lineReadCommand b s) := by
  unfold lineReadCommand
  split
  · exact (Calm.refl j s).answer _
  · exact Calm.refuse j s

theorem owner_ne_of_not_engine (h : timerOwnedByEngine s = false) (i : Inst) : s.tmr.owner ≠ ownerOf i := by
  intro ho
  simp [timerOwnedByEngine, ho] at h

theorem calm_tmrArmCommand (d : Byte) : Calm j s (tmrArmCommand d s) := by
  unfold tmrArmCommand
  split
  · exact Calm.refuse j s
  · split
    · exact Calm.refuse j s
    case isFalse hd hown =>
      have hno := owner_ne_of_not_engine (by simpa using hown)
      have hfg : ∀ i, Owner.FG ≠ ownerOf i := by intro i; cases i <;> nofun
      exact (Calm.setTimer j s s.now (fun i => iff_of_false (hfg i) (hno i)) (fun i _ h => absurd h (hfg i))
        fun _ => ⟨by simp, by simp, fun _ => hd⟩).answer 0

theorem calm_tmrDisableCommand : Calm j s (tmrDisableCommand s) := by
  unfold tmrDisableCommand
  split
  · exact Calm.refuse j s
  case isFalse hown =>
    have hno := owner_ne_of_not_engine (by simpa using hown)
    have hnone : ∀ i, Owner.none ≠ ownerOf i := fun i => (ownerOf_ne_none i).symm
    exact (Calm.setTimer j s s.now (fun i => iff_of_false (hnone i) (hno i)) (fun i _ h => absurd h (hnone i))
      fun _ => by simp [TimerInv]).answer 0

theorem calm_edgeSetCommand (i : Inst) (m : BitVec 2) : Calm (.edgeSet i m) s (edgeSetCommand i m s) := by
  unfold edgeSetCommand
  split
  · split
    case isTrue hn =>
      refine Calm.answer ?_ 0
      cases i
      · exact
          { Calm.refl _ s with
            undisturbed := fun k => by cases k <;> constructor <;> simp_all
            mode := fun k => by cases k; exacts [.inr ⟨m, rfl⟩, .inl rfl] }
      · exact
          { Calm.refl _ s with
            undisturbed := fun k => by cases k <;> constructor <;> simp_all
            mode := fun k => by cases k; exacts [.inl rfl, .inr ⟨m, rfl⟩] }
    case isFalse => exact Calm.refuse _ s
  · exact Calm.refuse _ s

theorem calm_getCommand (i : Inst) : Calm j s (getCommand i s) := by
  unfold getCommand
  split
  · exact Calm.refuse j s
  · split
    · exact Calm.refuse j s
    · split
      · exact Calm.refuse j s
      · exact (Calm.setQueue j s i .rx (Queue.wf_drop _)).answer _

theorem calm_cfgWrCommand (k : BitVec 4) (a : Byte) : Calm j s (cfgWrCommand k a s) := by
  unfold cfgWrCommand
  split
  · split
    · exact Calm.refuse j s
    case isFalse ha =>
      refine Calm.answer ?_ 0
      exact { Calm.refl j s with undisturbed := fun i => { Undisturbed.refl i s with }, cfg := fun h => h.set ha }
  · exact Calm.refuse j s

theorem calm_cfgRdCommand (k : BitVec 4) : Calm j s (cfgRdCommand k s) := by
  unfold cfgRdCommand
  split
  · exact (Calm.refl j s).answer _
  · exact Calm.refuse j s

/-- The timer after one microsecond (R93). -/
def tickTimer (τ : Timer) : Timer :=
  if τ.run then
    if τ.cnt - 1 = 0 then { τ with run := false, cnt := τ.cnt - 1, pend := true } else { τ with cnt := τ.cnt - 1 }
  else τ

theorem tick_eq (s : State) : tick s = { s with tmr := tickTimer s.tmr, now := s.now + 1 } := by
  unfold tick tickTimer
  cases hrun : s.tmr.run
  case false => simp [hrun]
  case true =>
    simp only [hrun, if_true]
    split <;> rfl

theorem tickTimer_owner (τ : Timer) : (tickTimer τ).owner = τ.owner := by
  unfold tickTimer
  split
  · split <;> rfl
  · rfl

theorem tickTimer_cnt_le {τ : Timer} (h : TimerInv τ) : (tickTimer τ).cnt ≤ τ.cnt := by
  obtain ⟨-, -, hcnt⟩ := h
  unfold tickTimer
  split
  case isTrue hrun =>
    have hle := Byte.sub_one_le (hcnt hrun) (BitVec.le_refl _)
    split <;> exact hle
  case isFalse => exact BitVec.le_refl _

theorem TimerInv.tick {τ : Timer} (h : TimerInv τ) : TimerInv (tickTimer τ) := by
  obtain ⟨hown, hone, hcnt⟩ := h
  unfold tickTimer
  split
  case isTrue hrun =>
    have howned : τ.owner ≠ .none := hown.mpr (.inl hrun)
    split
    case isTrue => simp [TimerInv, howned]
    case isFalse hne => exact ⟨hown, hone, fun _ => hne⟩
  case isFalse => exact ⟨hown, hone, hcnt⟩

theorem calm_tick : Calm j s (tick s) := by
  rw [tick_eq]
  exact Calm.setTimer j s _ (fun i => by rw [tickTimer_owner]) (fun i h _ => tickTimer_cnt_le h) TimerInv.tick

end Sys2Proof.Machine
end

section
/-!
PROOF. The steps of the foreground that run an engine (spec/46_foreground_commands.md R211, R212, R216, R218).
-/

namespace Sys2Proof.Machine

open Sys2Proof

variable {B : Prop} {j : Instr} {s₀ s t : State} {i : Inst} {e : Engine} {v : Ev} {r : Row}

/-! ## The idle-entry function of an instance -/

theorem idleEntry_p2h (h : s.p.role = .host) : idleEntry .P s = p2hCheckForData s := by simp [idleEntry, engineOf, h]

theorem idleEntry_p2d (h : s.p.role = .device) : idleEntry .P s = p2dCheckBus s := by simp [idleEntry, engineOf, h]

theorem idleEntry_xth (h : s.x.role = .host) : idleEntry .X s = xthIdle s := by simp [idleEntry, engineOf, h]

theorem idleEntry_xtd (h : s.x.role = .device) : idleEntry .X s = xtdCheckBus s := by simp [idleEntry, engineOf, h]

/-- The engines by instance and role (R69). -/
theorem engineOf_cases (he : engineOf i (s.inst i).role = some e) :
    (i = .P ∧ e = .p2h ∧ s.p.role = .host) ∨ (i = .P ∧ e = .p2d ∧ s.p.role = .device) ∨
    (i = .X ∧ e = .xth ∧ s.x.role = .host) ∨ (i = .X ∧ e = .xtd ∧ s.x.role = .device) := by
  cases i
  · cases hr : s.p.role <;> simp_all [engineOf]
  · cases hr : s.x.role <;> simp_all [engineOf]

theorem TouchesOnly.idleEntry (h : TouchesOnly i s₀ s) (he : engineOf i (s.inst i).role = some e)
    (ho : s.tmr.owner = s₀.tmr.owner ∨ s₀.tmr.owner = ownerOf i) : TouchesOnly i s₀ (idleEntry i s) := by
  rcases engineOf_cases he with ⟨rfl, -, hr⟩ | ⟨rfl, -, hr⟩ | ⟨rfl, -, hr⟩ | ⟨rfl, -, hr⟩
  · rw [idleEntry_p2h hr]; exact h.p2hCheckForData ho
  · rw [idleEntry_p2d hr]; exact h.p2dCheckBus ho
  · rw [idleEntry_xth hr]; exact h.xthIdle ho
  · rw [idleEntry_xtd hr]; exact h.xtdCheckBus ho

/-- From between two frames the idle-entry function lands in a row. -/
theorem idleEntry_lands (he : engineOf i (s.inst i).role = some e) (h : Between i .rel .rel s)
    (ht : timerWithout (ownerOf i) s.tmr = timerWithout (ownerOf i) s₀.tmr) (hc : CfgInv s.cfg)
    (hh : e = .p2h ∨ e = .xth → (s.inst i).hold = 0)
    (hl : level (clkOf i) s₀ = true → level (clkOf i) s = true) : Lands B i e v s₀ (idleEntry i s) := by
  rcases engineOf_cases he with ⟨rfl, rfl, hr⟩ | ⟨rfl, rfl, hr⟩ | ⟨rfl, rfl, hr⟩ | ⟨rfl, rfl, hr⟩
  · rw [idleEntry_p2h hr]; exact p2hCheckForData_lands ht h (hh (.inl rfl)) hl
  · rw [idleEntry_p2d hr]; exact p2dCheckBus_lands ht h
  · rw [idleEntry_xth hr]; exact xthIdle_lands ht h (hh (.inr rfl)) hl
  · rw [idleEntry_xtd hr]; exact xtdCheckBus_lands ht h hc

/-- The idle-entry function selects a detector mode, which discards a pending edge (R98). -/
theorem idleEntry_edgePend (he : engineOf i (s.inst i).role = some e) :
    ((idleEntry i s).inst i).edgePend = false := by
  rcases engineOf_cases he with ⟨rfl, -, hr⟩ | ⟨rfl, -, hr⟩ | ⟨rfl, -, hr⟩ | ⟨rfl, -, hr⟩
  · rw [idleEntry_p2h hr, p2hCheckForData]
    split <;> rfl
  · rw [idleEntry_p2d hr, p2dCheckBus]
    split
    · rfl
    · split
      · rfl
      · split <;> rfl
  · rw [idleEntry_xth hr]; rfl
  · rw [idleEntry_xtd hr, xtdCheckBus]
    split
    · rfl
    · split
      · split <;> rfl
      · rfl

/-! ## INIT and RESET -/

/-- What R211 and R216 do before the idle-entry function. -/
def cleared (i : Inst) (s : State) : State :=
  let s := releaseLine (clkOf i) s
  let s := releaseLine (dataOf i) s
  let s := tmrOff (ownerOf i) s
  let s := clear i .tx s
  let s := clear i .rx s
  let s := frameReset i s
  let s := setHold i 0 s
  if i = .P then setAckSeen true s else s

theorem reinit_eq (i : Inst) (s : State) : reinit i s = idleEntry i (cleared i s) := rfl

theorem cleared_tmr : (cleared i s).tmr = timerWithout (ownerOf i) s.tmr := by cases i <;> simp [cleared]

theorem cleared_cfg : (cleared i s).cfg = s.cfg := by cases i <;> simp [cleared]

theorem cleared_hold : ((cleared i s).inst i).hold = 0 := by cases i <;> simp [cleared]

theorem cleared_between : Between i .rel .rel (cleared i s) := by
  cases i <;> constructor <;> simp [cleared, clkOf, dataOf, LineBank.get, LineBank.set]

theorem level_cleared (h : level (clkOf i) s = true) : level (clkOf i) (cleared i s) = true := by
  cases i <;> simp_all [cleared, level, clkOf, dataOf, LineBank.get, LineBank.set]

theorem TouchesOnly.cleared (i : Inst) (s : State) : TouchesOnly i s (cleared i s) := by
  have h := (TouchesOnly.refl i s).releaseLine (l := clkOf i) (.inl rfl)
    |>.releaseLine (l := dataOf i) (.inr rfl) |>.tmrOff (by simp) |>.clear .tx |>.clear .rx |>.frameReset |>.setHold 0
  cases i
  · exact h.setAckSeen true
  · exact h

theorem timerWithout_owner (i : Inst) (τ : Timer) :
    (timerWithout (ownerOf i) τ).owner = τ.owner ∨ τ.owner = ownerOf i := by
  unfold timerWithout
  split
  · exact .inr ‹_›
  · exact .inl rfl

theorem timerWithout_timerWithout (c : Owner) (τ : Timer) :
    timerWithout c (timerWithout c τ) = timerWithout c τ := by
  unfold timerWithout
  split <;> simp_all [eq_comm]

theorem engineOf_cleared (he : engineOf i (s.inst i).role = some e) :
    engineOf i ((cleared i s).inst i).role = some e := by rwa [(TouchesOnly.cleared i s).role]

theorem TouchesOnly.reinit (he : engineOf i (s.inst i).role = some e) : TouchesOnly i s (reinit i s) :=
  (TouchesOnly.cleared i s).idleEntry (engineOf_cleared he) (cleared_tmr ▸ timerWithout_owner i s.tmr)

theorem reinit_lands (he : engineOf i (s.inst i).role = some e) (hc : CfgInv s.cfg) :
    Lands B i e v s (reinit i s) := by
  rw [reinit_eq]
  exact idleEntry_lands (engineOf_cleared he) cleared_between (by rw [cleared_tmr, timerWithout_timerWithout])
    (by rwa [cleared_cfg]) (fun _ => cleared_hold) level_cleared

/-! ## Every step of the foreground and the environment -/

/-- `j` is INIT of the instance with the role (R211). -/
def InitOf (j : Instr) (i : Inst) (ρ : Role) : Prop :=
  i = .P ∧ (j = .pInit 1 ∧ ρ = .host ∨ j = .pInit 2 ∧ ρ = .device) ∨
  i = .X ∧ (j = .xInit 1 ∧ ρ = .host ∨ j = .xInit 2 ∧ ρ = .device)

/-- The effects of the operation `j` of the foreground or the environment, but for the last, R99: it runs no engine, or
the engine of an instance with a role, or it gives an instance its role. -/
inductive Acts (j : Instr) (s : State) : State → Prop
  | calm {t : State} (h : Calm j s t) : Acts j s t
  | engine {i : Inst} {e : Engine} {t : State} (he : engineOf i (s.inst i).role = some e) (hf : TouchesOnly i s t)
      (hl : ∀ B, Stands B i e (s.inst i).st s → Lands B i e .edge s t) : Acts j s (answer 0 t)
  | init {i : Inst} {ρ : Role} {e : Engine} {t : State} (hj : InitOf j i ρ) (hn : (s.inst i).role = .none)
      (he : engineOf i ρ = some e) (hf : TouchesOnly i (setRole i ρ s) t) (hp : (t.inst i).edgePend = false)
      (hl : CfgInv s.cfg → ∀ B, Lands B i e .edge (setRole i ρ s) t) : Acts j s (answer 0 t)

theorem roleOfOperand_cases {rr : Byte} {ρ : Role} (h : roleOfOperand rr = some ρ) :
    rr = 1 ∧ ρ = .host ∨ rr = 2 ∧ ρ = .device := by
  unfold roleOfOperand at h
  split at h
  case h_1 h1 => cases h; exact .inl ⟨by bv_omega, rfl⟩
  case h_2 h2 => cases h; exact .inr ⟨by bv_omega, rfl⟩
  case h_3 => cases h

theorem exists_engineOf {ρ : Role} (i : Inst) (h : ρ ≠ .none) : ∃ e, engineOf i ρ = some e :=
  Option.ne_none_iff_exists'.mp fun hn => h (engineOf_eq_none.mp hn)

/-- INIT (R211). -/
theorem acts_initCommand {rr : Byte} (hj : ∀ ρ, roleOfOperand rr = some ρ → InitOf j i ρ) :
    Acts j s (initCommand i rr s) := by
  unfold initCommand
  split
  case h_1 ρ hρ =>
    split
    case isTrue hn =>
      obtain ⟨e, he⟩ := exists_engineOf (ρ := ρ) i (by rcases roleOfOperand_cases hρ with ⟨-, rfl⟩ | ⟨-, rfl⟩ <;> nofun)
      have he' : engineOf i ((setRole i ρ s).inst i).role = some e := by simpa using he
      exact .init (hj ρ hρ) hn he (TouchesOnly.reinit he') (idleEntry_edgePend (engineOf_cleared he'))
        fun hc B => reinit_lands he' (by simpa using hc)
    case isFalse => exact .calm (Calm.refuse j s)
  case h_2 => exact .calm (Calm.refuse j s)

/-- RESET (R216). -/
theorem acts_resetCommand : Acts j s (resetCommand i s) := by
  unfold resetCommand
  split
  · exact .calm (Calm.refuse j s)
  case isFalse hn =>
    obtain ⟨e, he⟩ := exists_engineOf i hn
    exact .engine he (TouchesOnly.reinit he) fun B h => reinit_lands he h.cfg

/-- An idle instance stands between two frames, its lines released. -/
theorem Stands.idle (h : Stands B i e .idle s) :
    Between i .rel .rel s ∧ (e = .p2h ∨ e = .xth → (s.inst i).hold = 0) := by
  cases e
  · exact ⟨(h.fits rfl).between, fun _ => (h.fits rfl).hold_zero rfl⟩
  · exact ⟨(h.fits rfl).between, by simp⟩
  · exact ⟨(h.fits rfl).between, fun _ => (h.fits rfl).hold_zero rfl⟩
  · exact ⟨(h.fits rfl).between, by simp⟩

theorem push_role (s : State) (i : Inst) (d : Dir) (a : Byte) : ((push i d a s).inst i).role = (s.inst i).role :=
  ((TouchesOnly.refl i s).push d a).role

/-- PUT (R212). -/
theorem acts_putCommand (a : Byte) : Acts j s (putCommand i a s) := by
  simp only [putCommand]
  split
  · exact .calm (Calm.refuse j s)
  case isFalse hn =>
    split
    · exact .calm (Calm.refuse j s)
    · split
      · exact .calm (Calm.refuse j s)
      · split
        case isTrue hidle =>
          obtain ⟨e, he⟩ := exists_engineOf i hn
          have he' : engineOf i ((push i .tx a s).inst i).role = some e := by rwa [push_role]
          refine .engine he (((TouchesOnly.refl i s).push .tx a).idleEntry he' (by simp)) fun B h => ?_
          rw [push_st] at hidle
          have h' : Stands B i e .idle (push i .tx a s) := by
            obtain ⟨hst, ⟨r, hr, hf, ho⟩, hc⟩ := h
            exact ⟨by rw [push_st]; exact hidle, ⟨r, hidle ▸ hr, hf.push .tx a, by simpa using ho⟩, by simpa using hc⟩
          exact idleEntry_lands he' h'.idle.1 (by simp) h'.cfg h'.idle.2 (by simp)
        case isFalse => exact .calm ((Calm.push j s i .tx a).answer 0)

/-- HRESET (R218). -/
theorem acts_hresetCommand : Acts j s (hresetCommand s) := by
  simp only [hresetCommand]
  split
  · exact .calm (Calm.refuse j s)
  case isFalse hn =>
    have hrole : s.x.role = .host := by by_contra h; exact hn (.inl h)
    have hst : s.x.st = .idle := by by_contra h; exact hn (.inr h)
    refine .engine (i := .X) (e := .xth) (by simp [hrole, engineOf])
      (((((TouchesOnly.refl .X s).setEdge .off).assertLine (.inl rfl)).setHold _).armCfg _ |>.setSt _) fun B h => ?_
    have h' : Stands B .X .xth .idle s := hst ▸ h
    obtain ⟨-, -, -, -, -, -, -, -, -, -, hticks, -⟩ := h.cfg
    exact lands_of_armed (c := .reset) rfl rfl rfl
      (Between.fits { h'.idle.1 with clk := rfl } rfl (HoldRule.holds_upTo hticks _)
        fun _ k hk => by cases hk; exact BitVec.le_refl _) rfl

end Sys2Proof.Machine
end

section
/-!
PROOF. Everything an operation can do (`Ran`), for the statements over all operations (spec/10_state.md R11, R28).
-/

namespace Sys2Proof.Machine

open Sys2Proof

variable {B : Prop} {j : Instr} {s t : State} {i : Inst} {e : Engine} {c : St} {v : Ev}

/-- The notification of the event `v` of the instance is the one to be dispatched, and has been taken (R257, R258). -/
inductive Takes (s : State) : Inst → Ev → State → Prop
  | edge {i : Inst} (h : deliverable s = some (.edge i)) : Takes s i .edge (takeEdge i s)
  | timer {i : Inst} (h : deliverable s = some .timer) (ho : s.tmr.owner = ownerOf i) : Takes s i .tmr (takeTimer s)

/-- What the operation `j` does when it completes: a rule alone, a whole handler step, or a step of the foreground or
the environment. -/
inductive Ran (j : Instr) (s : State) : State → Prop
  | rule {e : Engine} {c : St} {v : Ev} {body : State → State} (hj : transitionOf e c v = some j)
      (hr : (s.inst (engineInst e).1).role = (engineInst e).2) (hc : (s.inst (engineInst e).1).st = c)
      (h : IsRule e c v body) : Ran j s (body s)
  | handler {i : Inst} {e : Engine} {v : Ev} {taken : State} {body : State → State} (ht : Takes s i v taken)
      (he : engineOf i (taken.inst i).role = some e) (h : IsRule e (taken.inst i).st v body) :
      Ran j s (detectEdges s (body taken))
  | act {t : State} (hd : deliverable s = none) (h : Acts j s t) : Ran j s (detectEdges s t)

theorem engineInst_of_engineOf {ρ : Role} (he : engineOf i ρ = some e) : engineInst e = (i, ρ) := by
  cases i <;> cases ρ <;> cases he <;> rfl

theorem engineOf_engineInst (e : Engine) : engineOf (engineInst e).1 (engineInst e).2 = some e := by cases e <;> rfl

/-! ## Transitions, by their key -/

/-- An operation whose word is a dispatch key is the transition of some triple (R69). -/
theorem exists_triple_of_key {k : Byte} (h : encode j = .key k) : ∃ e c v, transitionOf e c v = some j := by
  have hk : decodeKey k = some j := by cases j <;> cases h <;> rfl
  unfold decodeKey at hk
  split at hk
  · exact ⟨_, _, _, hk⟩
  · cases hk

/-- A transition's own word is a dispatch key (R69). -/
theorem encode_of_transitionOf (h : transitionOf e c v = some j) : ∃ k, encode j = .key k := by
  cases e <;> cases c <;> cases v <;> cases h <;> exact ⟨_, rfl⟩

theorem ran_of_key {k : Byte} (hk : encode j = .key k) (h : exec j s = .next t) : Ran j s t := by
  obtain ⟨e, c, v, hj⟩ := exists_triple_of_key hk
  obtain ⟨body, hexec, hrule⟩ := exists_rule hj
  obtain ⟨hr, hc, rfl⟩ := transition_next (hexec s ▸ h)
  exact .rule hj hr hc hrule

/-! ## Handlers -/

theorem runTransition_eq_exec (h : transitionOf e c v = some j) (i : Inst) (ev : Ev) (s : State) :
    runTransition i ev j s = exec j s := by
  cases e <;> cases c <;> cases v <;> cases h <;> rfl

/-- A handler step that completes ran the rule of its key (R249, R259). -/
theorem runHandler_next {before taken : State} (h : runHandler i v before taken = .next t) :
    ∃ e body, engineOf i (taken.inst i).role = some e ∧ IsRule e (taken.inst i).st v body ∧
      t = detectEdges before (body taken) := by
  unfold runHandler at h
  split at h
  · cases h
  case h_2 j hsel =>
    cases he : engineOf i (taken.inst i).role with
    | none => simp [selectTransition, he] at hsel
    | some e =>
      rw [selectTransition_eq taken i v he] at hsel
      rw [runTransition_eq_exec hsel] at h
      obtain ⟨body, hexec, hrule⟩ := exists_rule hsel
      have hi := engineInst_of_engineOf he
      rw [hexec, transition_enabled taken body (by rw [hi]) (by rw [hi])] at h
      cases h
      exact ⟨e, body, rfl, hrule, rfl⟩

theorem ran_of_irqEdge (h : execIrqEdge i s = .next t) : Ran j s t := by
  unfold execIrqEdge at h
  split at h
  case isTrue hd =>
    obtain ⟨e, body, he, hrule, rfl⟩ := runHandler_next h
    exact .handler (.edge hd) he hrule
  case isFalse => cases h

theorem ran_of_irqTmr (h : execIrqTmr s = .next t) : Ran j s t := by
  unfold execIrqTmr at h
  split at h
  case isTrue hd =>
    split at h
    case h_1 i ho =>
      obtain ⟨e, body, he, hrule, rfl⟩ := runHandler_next h
      exact .handler (.timer hd (ownerOf_of_ownerInst ho)) he hrule
    case h_2 => cases h
  case isFalse => cases h

/-! ## The foreground and the environment -/

theorem ran_of_asStep {body : State → State} (ha : Acts j s (body s)) (h : asStep body s = .next t) : Ran j s t := by
  unfold asStep at h
  split at h
  case isTrue hd => cases h; exact .act hd ha
  case isFalse => cases h

theorem ran_of_calm {body : State → State} (ha : Calm j s (body s)) (h : asStep body s = .next t) : Ran j s t :=
  ran_of_asStep (.calm ha) h

theorem ran_of_farEnd {l : BitVec 4} {d : Drive} (h : farEnd l d s = .next t) : Ran j s t := by
  unfold farEnd at h
  split at h
  · exact ran_of_calm (Calm.setExt j s _ d) h
  · cases h

theorem initOf_P {rr : Byte} {ρ : Role} (h : roleOfOperand rr = some ρ) : InitOf (.pInit rr) .P ρ :=
  (roleOfOperand_cases h).elim (fun ⟨hr, hρ⟩ => .inl ⟨rfl, .inl ⟨hr ▸ rfl, hρ⟩⟩)
    fun ⟨hr, hρ⟩ => .inl ⟨rfl, .inr ⟨hr ▸ rfl, hρ⟩⟩

theorem initOf_X {rr : Byte} {ρ : Role} (h : roleOfOperand rr = some ρ) : InitOf (.xInit rr) .X ρ :=
  (roleOfOperand_cases h).elim (fun ⟨hr, hρ⟩ => .inr ⟨rfl, .inl ⟨hr ▸ rfl, hρ⟩⟩)
    fun ⟨hr, hρ⟩ => .inr ⟨rfl, .inr ⟨hr ▸ rfl, hρ⟩⟩

/-- Everything an operation can do. -/
theorem exec_ran (h : exec j s = .next t) : Ran j s t := by
  cases j
  case lineAssert b =>
    exact ran_of_calm (calm_lineCommand (d := .low) (fun _ => rfl) fun l hl => ⟨b, hl, .inl ⟨rfl, by simp⟩⟩) h
  case lineRelease b =>
    exact ran_of_calm (calm_lineCommand (d := .rel) (fun _ => rfl) fun l hl => ⟨b, hl, .inr ⟨rfl, by simp⟩⟩) h
  case lineRead b => exact ran_of_calm (calm_lineReadCommand b) h
  case tmrArm d => exact ran_of_calm (calm_tmrArmCommand d) h
  case tmrDisable => exact ran_of_calm calm_tmrDisableCommand h
  case tmrStatus => exact ran_of_calm ((Calm.refl _ s).answer _) h
  case edgeSet i m => exact ran_of_calm (calm_edgeSetCommand i m) h
  case edgeStatus i => exact ran_of_calm ((Calm.refl _ s).answer _) h
  case pInit rr => exact ran_of_asStep (acts_initCommand fun _ => initOf_P) h
  case xInit rr => exact ran_of_asStep (acts_initCommand fun _ => initOf_X) h
  case pPut a => exact ran_of_asStep (acts_putCommand a) h
  case xPut a => exact ran_of_asStep (acts_putCommand a) h
  case pReset => exact ran_of_asStep acts_resetCommand h
  case xReset => exact ran_of_asStep acts_resetCommand h
  case xHreset => exact ran_of_asStep acts_hresetCommand h
  case pGet => exact ran_of_calm (calm_getCommand .P) h
  case xGet => exact ran_of_calm (calm_getCommand .X) h
  case pRxcount | pTxcount | pState | xRxcount | xTxcount | xState =>
    exact ran_of_calm ((Calm.refl _ s).answer _) h
  case cfgWr k a => exact ran_of_calm (calm_cfgWrCommand k a) h
  case cfgRd k => exact ran_of_calm (calm_cfgRdCommand k) h
  case envTick => exact ran_of_calm calm_tick h
  case envLow l => exact ran_of_farEnd h
  case envRel l => exact ran_of_farEnd h
  case irqEdge i => exact ran_of_irqEdge h
  case irqTmr => exact ran_of_irqTmr h
  case framePs2D2h | framePs2H2d | frameXtD2h => exact ran_of_calm (Calm.play _ s _) h
  -- the 45 dispatch keys
  all_goals exact ran_of_key rfl h

end Sys2Proof.Machine
end

section
/-!
PROOF. Every step keeps the invariant (spec/10_state.md R28), and a role is written once (R11).
-/

namespace Sys2Proof.Machine

open Sys2Proof

variable {B : Prop} {j : Instr} {s t before taken : State} {i : Inst} {e : Engine} {c : St} {v : Ev}

theorem TouchesOnly.role_eq (h : TouchesOnly i s t) (k : Inst) : (t.inst k).role = (s.inst k).role := by
  rcases inst_cases i k with rfl | rfl
  · exact h.role
  · rw [h.other]

/-! ## Taking a notification -/

theorem Takes.touches (h : Takes s i v taken) :
    TouchesOnly i s taken ∧ (taken.tmr.owner = s.tmr.owner ∨ s.tmr.owner = ownerOf i) := by
  cases h with
  | edge h => exact ⟨(TouchesOnly.refl i s).takeEdge, .inl (by simp)⟩
  | timer h ho => exact ⟨{ TouchesOnly.refl i s with owner := .inr (.inr ho) }, .inr ho⟩

/-- A handler, from before the taking of its notification, touches only its instance. -/
theorem Takes.touches_rule {body : State → State} (h : Takes s i v taken)
    (he : engineOf i (taken.inst i).role = some e) (hb : IsRule e c v body) : TouchesOnly i s (body taken) := by
  have hrule := hb.touches taken
  rw [engineInst_of_engineOf he] at hrule
  exact h.touches.1.trans hrule h.touches.2

/-! ## A role is written once -/

/-- Settles O55: rules and calm steps keep every role; what remains is INIT. -/
theorem roleWrittenOnceByInit : Obligations.RoleWrittenOnceByInit := by
  intro j s t i h
  cases exec_ran h with
  | rule hj hr hc hb => exact .inl ((hb.touches s).role_eq i)
  | handler ht he hb => exact .inl (by simpa using (ht.touches_rule he hb).role_eq i)
  | act hd ha =>
    cases ha with
    | calm hc => exact .inl (by simpa using (hc.undisturbed i).role)
    | engine he hf hl => exact .inl (by simpa using hf.role_eq i)
    | @init k ρ e u hj hn he hf hp hl =>
      rcases inst_cases k i with rfl | rfl
      · have hρ : (u.inst i).role = ρ := by simpa using hf.role
        rcases hj with ⟨rfl, hj⟩ | ⟨rfl, hj⟩
        · exact .inr ⟨hn, .inl ⟨rfl, by simpa [show u.p.role = ρ from hρ] using hj⟩⟩
        · exact .inr ⟨hn, .inr ⟨rfl, by simpa [show u.x.role = ρ from hρ] using hj⟩⟩
      · refine .inl ?_
        have hother := hf.other
        rw [setRole_eq, modInst_inst_other _ _ _ (otherInst_ne k)] at hother
        simp [hother]

/-! ## Steps that run no engine keep the invariant -/

theorem Calm.edgeDeliverable (h : Calm j s t) (hs : edgeDeliverable i s = false) : edgeDeliverable i t = false := by
  have hu := h.undisturbed i
  unfold Machine.edgeDeliverable at *
  by_cases hn : (s.inst i).role = .none
  · simp [hu.role, hn]
  · rwa [hu.role, hu.pend hn]

/-- R99 makes an edge deliverable only where a CLOCK level has changed. -/
theorem edgeDeliverable_detectEdges (hs : edgeDeliverable i t = false)
    (hl : (t.inst i).role ≠ .none → level (clkOf i) t = level (clkOf i) before) :
    edgeDeliverable i (detectEdges before t) = false := by
  unfold Machine.edgeDeliverable at *
  rw [detectEdges_inst]
  by_cases hn : (t.inst i).role = .none
  · simp [hn]
  · simpa [hl hn] using hs

/-- At most one notification follows a step that runs no engine: the timer's, if the CLOCK levels stand still, or one
edge, if one line moves. -/
theorem Calm.atMostOne (h : Calm j s t) (hd : deliverable s = none) : AtMostOne (detectEdges s t) := by
  obtain ⟨hp, hx, ht⟩ := (deliverable_none_iff s).mp hd
  have hp := h.edgeDeliverable hp
  have hx := h.edgeDeliverable hx
  rcases h.still with hstill | ⟨htmr, l, hl⟩
  · have hstill : ∀ i, (t.inst i).role ≠ .none → level (clkOf i) t = level (clkOf i) s := fun i hn =>
      hstill i ((h.undisturbed i).role ▸ hn)
    have hp := edgeDeliverable_detectEdges hp (hstill .P)
    have hx := edgeDeliverable_detectEdges hx (hstill .X)
    simp [AtMostOne, hp, hx]
  · have ht : tmrDeliverable (detectEdges s t) = false := by
      unfold tmrDeliverable at *
      rwa [detectEdges_tmr, htmr]
    by_cases hlp : l = clkOf .P
    · have hx := edgeDeliverable_detectEdges hx fun _ => hl (clkOf .X) (by rw [hlp]; decide)
      simp [AtMostOne, hx, ht]
    · have hp := edgeDeliverable_detectEdges hp fun _ => hl (clkOf .P) (Ne.symm hlp)
      simp [AtMostOne, hp, ht]

theorem Calm.instInv (h : Calm j s t) (hi : InstInv i s) : InstInv i t :=
  (h.undisturbed i).instInv hi (mt (h.owner i).mp) fun ho =>
    ho.imp (h.owner i).mpr fun hn => by rwa [(h.undisturbed (otherInst i)).role]

theorem queuesWf_detectEdges (h : QueuesWf t) : QueuesWf (detectEdges before t) := by
  simpa [QueuesWf] using h

theorem Calm.blockInv (h : Calm j s t) (hs : BlockInv s) (hd : deliverable s = none) :
    BlockInv (detectEdges s t) ∧ (detectEdges s t).slots = s.slots := by
  obtain ⟨hp, hx, htmr, hcfg, hslots, hqueues, -⟩ := hs
  refine ⟨⟨(h.instInv hp).detectEdges s, (h.instInv hx).detectEdges s, ?_, ?_, ?_, ?_, h.atMostOne hd⟩, ?_⟩
  · simpa using h.timer htmr
  · simpa using h.cfg hcfg
  · simpa [h.slots] using hslots
  · exact queuesWf_detectEdges (h.queues hqueues)
  · simp [h.slots]

/-! ## Engines keep the invariant -/

theorem BlockInv.inst (h : BlockInv s) (i : Inst) : InstInv i s := by
  obtain ⟨hp, hx, -⟩ := h
  cases i
  · exact hp
  · exact hx

theorem detectEdges_answer (a : Byte) : detectEdges before (answer a t) = answer a (detectEdges before t) := by
  simp only [detectEdges, detectEdge_eq]
  rfl

/-- With a role, an instance whose edge is not deliverable has none pending (R247). -/
theorem edgePend_of_not_deliverable (hn : (s.inst i).role ≠ .none) (h : edgeDeliverable i s = false) :
    (s.inst i).edgePend = false := by
  simpa [edgeDeliverable, hn] using h

theorem edgeDeliverable_of_none (h : deliverable s = none) (i : Inst) : edgeDeliverable i s = false := by
  obtain ⟨hp, hx, -⟩ := (deliverable_none_iff s).mp h
  cases i
  · exact hp
  · exact hx

theorem Acts.blockInv (h : Acts j s t) (hs : BlockInv s) (hd : deliverable s = none) :
    BlockInv (detectEdges s t) ∧ (detectEdges s t).slots = s.slots := by
  obtain ⟨-, -, hdt⟩ := (deliverable_none_iff s).mp hd
  have ⟨_, _, htmr, hcfg, hslots, hqueues, _⟩ := hs
  cases h with
  | calm hc => exact hc.blockInv hs hd
  | @engine i e t he hf hl =>
    have hland := hl False ((hs.inst i).stands he hcfg nofun)
    have hpend := hf.pend (edgePend_of_not_deliverable (role_ne_none he) (edgeDeliverable_of_none hd i))
    obtain ⟨hinv, -⟩ := hf.blockInv hland he (hs.inst _) htmr hcfg hslots hqueues nofun hpend
      (edgeDeliverable_of_none hd _) hdt
    rw [detectEdges_answer, hf.detectEdges hland fun _ => rfl]
    exact ⟨hinv, hf.slots⟩
  | @init i ρ e t hj hn he hf hp hl =>
    have hland := hl hcfg False
    have hρ : ρ ≠ .none := by rintro rfl; rw [engineOf_eq_none.mpr rfl] at he; cases he
    have hu : Undisturbed (otherInst i) s (setRole i ρ s) := by
      constructor <;> simp [modInst_inst_other]
    have hother : InstInv (otherInst i) (setRole i ρ s) :=
      hu.instInv (hs.inst _) (by simp) fun _ => .inr (by simpa using hρ)
    obtain ⟨hinv, -⟩ := hf.blockInv hland (by simpa using he) hother (by simpa using htmr) (by simpa using hcfg)
      (by simpa using hslots) (by cases i <;> exact hqueues) nofun hp
      (by have := edgeDeliverable_of_none hd (otherInst i)
          unfold edgeDeliverable at *; rwa [hu.role, setRole_eq, modInst_inst_other _ _ _ (otherInst_ne i)])
      (by unfold tmrDeliverable at *; simpa using hdt)
    rw [detectEdges_answer, hf.detectEdges hland fun k => by simp]
    exact ⟨hinv, by simpa using hf.slots⟩

/-- With the notification taken the invariant holds of everything but the one instance's timer, and nothing is
deliverable (R28 (e)). -/
theorem Takes.ready (h : Takes s i v taken) (hs : BlockInv s) :
    deliverable taken = none ∧ TimerInv taken.tmr ∧ (v = .tmr → taken.tmr.owner ≠ ownerOf i) ∧
    (∀ l, level l taken = level l s) := by
  obtain ⟨-, -, htmr, -, -, -, hpx, hpt, hxt⟩ := hs
  cases h with
  | edge h =>
    have hi := deliverable_edge s h
    refine ⟨?_, by simpa using htmr, nofun, fun l => by simp⟩
    refine deliverable_none_of_inst i (by simp [edgeDeliverable]) ?_ ?_
    · have hno : edgeDeliverable (otherInst i) s = false := by
        cases i <;> simp_all [otherInst]
      unfold edgeDeliverable at *
      rwa [takeEdge_eq, modInst_inst_other _ _ _ (otherInst_ne i)]
    · have hno : tmrDeliverable s = false := by cases i <;> simp_all
      unfold tmrDeliverable at *
      simpa using hno
  | timer h ho =>
    have ht := deliverable_timer s h
    have hp : edgeDeliverable .P s = false := by simpa [ht] using hpt
    have hx : edgeDeliverable .X s = false := by simpa [ht] using hxt
    refine ⟨(deliverable_none_iff _).mpr ⟨hp, hx, rfl⟩, ?_, fun _ => (ownerOf_ne_none i).symm, fun _ => rfl⟩
    · obtain ⟨-, hone, hcnt⟩ := htmr
      simp_all [TimerInv, tmrDeliverable]

/-- A handler starts from an instance that stands in its state. -/
theorem Takes.stands (h : Takes s i v taken) (hs : BlockInv s) (hb : B → Bounded i s)
    (he : engineOf i (taken.inst i).role = some e) : Stands B i e (taken.inst i).st taken := by
  have ⟨_, _, _, hcfg, _⟩ := hs
  have he' : engineOf i (s.inst i).role = some e := by rwa [← h.touches.1.role]
  obtain ⟨hst, ⟨r, hr, hf, ho⟩, -⟩ := (hs.inst i).stands he' hcfg hb
  cases h with
  | edge h => cases i <;> exact ⟨rfl, ⟨r, hr, { hf with }, ho⟩, hcfg⟩
  | timer h hown => cases i <;> exact ⟨rfl, ⟨r, hr, { hf with }, fun hk => absurd hown (ho hk)⟩, hcfg⟩

theorem Takes.instInv_other (h : Takes s i v taken) (hs : BlockInv s) (hn : (taken.inst i).role ≠ .none) :
    InstInv (otherInst i) taken := by
  refine h.touches.1.undisturbed.instInv (hs.inst _) ?_ fun _ => .inr (by simpa using hn)
  cases h with
  | edge h => simp
  | timer h ho => exact fun _ => (ownerOf_ne_none _).symm

/-- A handler step keeps the invariant. -/
theorem Takes.blockInv {body : State → State} (h : Takes s i v taken) (hs : BlockInv s)
    (he : engineOf i (taken.inst i).role = some e) (hb : IsRule e (taken.inst i).st v body) :
    BlockInv (detectEdges s (body taken)) ∧ (detectEdges s (body taken)).slots = s.slots := by
  obtain ⟨hd, htmr, ho, hlev⟩ := h.ready hs
  obtain ⟨-, -, hdt⟩ := (deliverable_none_iff taken).mp hd
  have ⟨_, _, _, hcfg, hslots, hqueues, _⟩ := hs
  have htouch := h.touches.1
  have hf := hb.touches taken
  have hland := hb.lands False taken
  rw [engineInst_of_engineOf he] at hf hland
  have hland := hland (h.stands hs nofun he)
  have hpend := hf.pend (edgePend_of_not_deliverable (role_ne_none he) (edgeDeliverable_of_none hd i))
  obtain ⟨hinv, -⟩ := hf.blockInv hland he (h.instInv_other hs (role_ne_none he)) htmr (by rwa [htouch.cfg])
    (by rwa [htouch.slots]) (htouch.queuesWf hqueues) ho hpend (edgeDeliverable_of_none hd _) hdt
  rw [hf.detectEdges hland fun k => (hlev (clkOf k)).symm]
  exact ⟨hinv, hf.slots.trans htouch.slots⟩

/-- The operation is a bare transition: its word is a dispatch key (R69). -/
def isTransition (j : Instr) : Bool :=
  match encode j with
  | .key _ => true
  | _ => false

theorem isTransition_of_transitionOf (h : transitionOf e c v = some j) : isTransition j = true := by
  obtain ⟨k, hk⟩ := encode_of_transitionOf h
  simp [isTransition, hk]

/-- Everything but a bare transition keeps the invariant. -/
theorem exec_blockInv (h : exec j s = .next t) (hj : isTransition j = false) (hs : BlockInv s) :
    BlockInv t ∧ t.slots = s.slots := by
  cases exec_ran h with
  | rule htr => rw [isTransition_of_transitionOf htr] at hj; cases hj
  | handler ht he hb => exact ht.blockInv hs he hb
  | act hd ha => exact ha.blockInv hs hd

/-! ## No word of `script` is a bare transition (R251) -/

section Decoded

variable {op : BitVec 4} {x : Byte} {w : Word16}

theorem isTransition_ite {p : Prop} [Decidable p] {a : Instr} {d : DecodeError} (ha : isTransition a = false)
    (h : (if p then .ok a else .error d) = Except.ok j) : isTransition j = false := by
  split at h <;> cases h
  exact ha

theorem isTransition_noOperand {a : Instr} (ha : isTransition a = false) (h : noOperand x a = .ok j) :
    isTransition j = false := isTransition_ite ha h

theorem isTransition_decodeLineUnit (h : decodeLineUnit op x = .ok j) : isTransition j = false := by
  unfold decodeLineUnit at h
  split at h <;> cases h <;> rfl

theorem isTransition_decodeTimerUnit (h : decodeTimerUnit op x = .ok j) : isTransition j = false := by
  unfold decodeTimerUnit at h
  split at h
  case h_1 => cases h; rfl
  case h_4 => cases h
  all_goals exact isTransition_noOperand rfl h

theorem isTransition_decodeEdgeUnit (h : decodeEdgeUnit op x = .ok j) : isTransition j = false := by
  unfold decodeEdgeUnit at h
  split at h
  case h_3 => cases h
  all_goals exact isTransition_ite rfl h

theorem isTransition_decodePUnit (h : decodePUnit op x = .ok j) : isTransition j = false := by
  unfold decodePUnit at h
  split at h
  case h_1 | h_2 => cases h; rfl
  case h_8 => cases h
  all_goals exact isTransition_noOperand rfl h

theorem isTransition_decodeXUnit (h : decodeXUnit op x = .ok j) : isTransition j = false := by
  unfold decodeXUnit at h
  split at h
  case h_1 | h_2 => cases h; rfl
  case h_9 => cases h
  all_goals exact isTransition_noOperand rfl h

theorem isTransition_decodeCommand (h : decodeCommand w = .ok j) : isTransition j = false := by
  unfold decodeCommand at h
  split at h
  · exact isTransition_decodeLineUnit h
  · exact isTransition_decodeTimerUnit h
  · exact isTransition_decodeEdgeUnit h
  · exact isTransition_decodePUnit h
  · exact isTransition_decodeXUnit h
  · cases h; rfl
  · exact isTransition_noOperand rfl h
  · cases h

theorem isTransition_decodeEvent (h : decodeEvent w = .ok j) : isTransition j = false := by
  unfold decodeEvent at h
  split at h
  · cases h
  · split at h
    case h_1 | h_5 => exact isTransition_noOperand rfl h
    case h_6 => cases h
    all_goals exact isTransition_ite rfl h

theorem isTransition_decodeFrame {f : FrameKind} {symbols : List Bool} {half : Nat}
    (h : decodeFrame f symbols half = .ok j) : isTransition j = false := by
  unfold decodeFrame at h
  split at h
  case h_1 | h_2 => exact isTransition_ite rfl h
  case h_3 => cases h; rfl
  case h_4 => cases h

end Decoded

/-- What is fetched from `script` runs an operation that is no bare transition, or has answered an illegal command word
with no effect (R221, R251). -/
theorem fetchCode_cases (w : Code) (s : State) :
    (∃ j, isTransition j = false ∧ fetchCode w s = .run j s) ∨
    fetchCode w s = .answered (detectEdges s (refuse s)) ∨ ∃ r, fetchCode w s = .stop r := by
  cases w with
  | command w =>
    cases hw : decodeCommand w with
    | ok j => exact .inl ⟨j, isTransition_decodeCommand hw, by simp [fetchCode, hw]⟩
    | error d => exact .inr (.inl (by simp [fetchCode, hw]))
  | event w =>
    cases hw : decodeEvent w with
    | ok j => exact .inl ⟨j, isTransition_decodeEvent hw, by simp [fetchCode, hw]⟩
    | error d => exact .inr (.inr ⟨.noSuchEvent d, by simp [fetchCode, hw]⟩)
  | key k => exact .inr (.inr ⟨_, rfl⟩)
  | frame f symbols half =>
    cases hw : decodeFrame f symbols half with
    | ok j => exact .inl ⟨j, isTransition_decodeFrame hw, by simp [fetchCode, hw]⟩
    | error d => exact .inr (.inr ⟨.noSuchEvent d, by simp [fetchCode, hw]⟩)

/-- The invariant does not look at `script`. -/
theorem BlockInv.setScript (h : BlockInv s) (rest : List Code) : BlockInv { s with script := rest } := h

/-- Settles O52: a step runs a handler, or a command, event or frame, and each keeps the invariant. -/
theorem stepKeepsInvariant : Obligations.StepKeepsInvariant := by
  intro s t hs h
  unfold step fetch at h
  cases hd : deliverable s with
  | some n => cases n <;> (rw [hd] at h; exact exec_blockInv h rfl hs)
  | none =>
    rw [hd] at h
    cases hscript : s.script with
    | nil => rw [hscript] at h; exact exec_blockInv h rfl hs
    | cons w rest =>
      rw [hscript] at h
      have hs' := hs.setScript rest
      rcases fetchCode_cases w { s with script := rest } with ⟨j, hj, hf⟩ | hf | ⟨r, hf⟩
      · simp only [hf] at h; exact exec_blockInv (s := { s with script := rest }) h hj hs'
      · simp only [hf] at h; cases h; exact (Calm.refuse .envTick _).blockInv hs' hd
      · simp [hf] at h

end Sys2Proof.Machine
end

section
/-!
PROOF. What R28 (c), R28 (d) and the tables say beyond one state (notes/assumptions/10.md, 11.md, 16.md).
-/

namespace Sys2Proof.Machine

open Sys2Proof

variable {B : Prop} {j : Instr} {s s₀ t before taken : State} {i k : Inst} {e : Engine} {c : St} {v : Ev}

/-! ## Instances without a role -/

/-- What `j` may have done to an instance without a role: its lines by LINE commands, its detector by EDGE.SET. -/
def LeavesUnclaimed (j : Instr) (i : Inst) (s t : State) : Prop :=
  (∀ n, instOfLine n = some i → t.own.get n = s.own.get n ∨ DrivenBy j n t) ∧
  ((t.inst i).edgeMode = (s.inst i).edgeMode ∨ ∃ m, j = .edgeSet i m)

theorem TouchesOnly.leavesUnclaimed (hf : TouchesOnly k s t) (hk : (t.inst k).role ≠ .none)
    (hi : (t.inst i).role = .none) : LeavesUnclaimed j i s t := by
  rcases inst_cases k i with rfl | rfl
  · exact absurd hi hk
  · refine ⟨fun n hn => .inl (hf.own n ?_ ?_), .inl (by rw [hf.other])⟩
    · rintro rfl; rw [instOfLine_clk] at hn; exact otherInst_ne k (Option.some.inj hn).symm
    · rintro rfl; rw [instOfLine_data] at hn; exact otherInst_ne k (Option.some.inj hn).symm

theorem LeavesUnclaimed.detectEdges (h : LeavesUnclaimed j i s t) (before : State) :
    LeavesUnclaimed j i s (detectEdges before t) := by
  simpa [LeavesUnclaimed, DrivenBy] using h

theorem exec_leavesUnclaimed (h : exec j s = .next t) (hi : (t.inst i).role = .none) : LeavesUnclaimed j i s t := by
  cases exec_ran h with
  | @rule e c v body hj hr hc hb =>
    have hf := hb.touches s
    have hk : (s.inst (engineInst e).1).role ≠ .none := role_ne_none (hr ▸ engineOf_engineInst e)
    exact hf.leavesUnclaimed (hf.role ▸ hk) hi
  | @handler k e v taken body ht he hb =>
    have hf := ht.touches_rule he hb
    have hk : (s.inst k).role ≠ .none := ht.touches.1.role ▸ role_ne_none he
    exact (hf.leavesUnclaimed (hf.role ▸ hk) (by simpa using hi)).detectEdges s
  | act hd ha =>
    refine LeavesUnclaimed.detectEdges ?_ s
    cases ha with
    | calm hc => exact ⟨fun n _ => hc.own n, hc.mode i⟩
    | engine he hf hl => exact hf.leavesUnclaimed (hf.role ▸ role_ne_none he) (by simpa using hi)
    | @init k ρ e u hj hn he hf hp hl =>
      have hk : engineOf k ((setRole k ρ s).inst k).role = some e := by simpa using he
      have hu : LeavesUnclaimed j i (setRole k ρ s) u :=
        hf.leavesUnclaimed (hf.role ▸ role_ne_none hk) (by simpa using hi)
      cases i <;> cases k <;> exact hu

/-- `j` asserts a line of the instance (R87). -/
def AssertsLineOf (j : Instr) (i : Inst) : Prop :=
  ∃ l n, j = .lineAssert l ∧ lineOfId l.toNat = some n ∧ instOfLine n = some i

/-- No operation takes a role away. -/
theorem role_none_before (h : exec j s = .next t) (hi : (t.inst i).role = .none) : (s.inst i).role = .none := by
  rcases roleWrittenOnceByInit j s t i h with hr | ⟨hn, -⟩
  · exact hr.symm.trans hi
  · exact hn

/-- R28 (c) of the lines is broken by LINE.ASSERT only. -/
theorem exec_releasedUnclaimed (h : exec j s = .next t) (hs : ReleasedUnclaimed i s) (hj : ¬AssertsLineOf j i) :
    ReleasedUnclaimed i t := by
  intro hi
  obtain ⟨hclk, hdata⟩ := hs (role_none_before h hi)
  have hline : ∀ n, instOfLine n = some i → s.own.get n = .rel → t.own.get n = .rel := by
    intro n hn hrel
    rcases (exec_leavesUnclaimed h hi).1 n hn with hsame | ⟨l, hl, ⟨hassert, -⟩ | ⟨-, hrel⟩⟩
    · exact hsame.trans hrel
    · exact absurd ⟨l, n, hassert, hl, hn⟩ hj
    · exact hrel
  exact ⟨hline _ (instOfLine_clk i) hclk, hline _ (instOfLine_data i) hdata⟩

theorem runOps_releasedUnclaimed {js : List Instr} (h : runOps js s = .next t) (hs : ReleasedUnclaimed i s)
    (hjs : ∀ j ∈ js, ¬AssertsLineOf j i) : ReleasedUnclaimed i t := by
  induction js generalizing s with
  | nil => cases h; exact hs
  | cons j rest ih =>
    unfold runOps at h
    split at h
    case h_1 u hu =>
      exact ih h (exec_releasedUnclaimed hu hs (hjs j (by simp))) fun k hk => hjs k (by simp [hk])
    case h_2 => cases h
    case h_3 => cases h

/-! ## Timers and bounds across a step -/

/-- The last clauses of `TablesAcrossSteps`. -/
def KeepsTables (s t : State) : Prop :=
  (∀ i, KeepsTimer i s → KeepsTimer i t ∨ t.tmr.owner = ownerOf (otherInst i)) ∧
  (t.p.role = .device → t.p.st = .holdoff → t.own.ps2Clk = .low →
    s.p.st = .sendStop ∨ s.p.st = .holdoff ∧ s.own.ps2Clk = .low) ∧
  ((∀ i, Bounded i s) → t.cfg = s.cfg → ∀ i, Bounded i t)

theorem KeepsTables.detectEdges (h : KeepsTables s t) (before : State) : KeepsTables s (detectEdges before t) := by
  simpa [KeepsTables, KeepsTimer, Bounded, rowAt] using h

theorem Undisturbed.rowAt (h : Undisturbed i s t) : rowAt i t = rowAt i s := by
  unfold Machine.rowAt
  rw [h.role, h.st]

theorem Undisturbed.keepsTimer (h : Undisturbed i s t) (hs : KeepsTimer i s)
    (ho : s.tmr.owner = ownerOf i → t.tmr.owner = ownerOf i) : KeepsTimer i t :=
  fun r hr hk => ho (hs r (h.rowAt ▸ hr) hk)

theorem Undisturbed.bounded (h : Undisturbed i s t) (hs : Bounded i s) (hcfg : t.cfg = s.cfg)
    (hc : t.tmr.owner = ownerOf i → s.tmr.owner = ownerOf i ∧ t.tmr.cnt ≤ s.tmr.cnt) : Bounded i t := by
  intro r hr
  obtain ⟨hcnt, hhold⟩ := hs r (h.rowAt ▸ hr)
  rw [hcfg, h.hold]
  exact ⟨fun c hk ho => BitVec.le_trans (hc ho).2 (hcnt c hk (hc ho).1), hhold⟩

/-- CLOCK of the PS/2 device in a step that leaves the instance alone. -/
theorem Undisturbed.holdoff (h : Undisturbed .P s t) (hr : t.p.role = .device) (hst : t.p.st = .holdoff)
    (hlow : t.own.ps2Clk = .low) : s.p.st = .holdoff ∧ s.own.ps2Clk = .low := by
  have hs : s.p.role = .device := h.role.symm.trans hr
  exact ⟨h.st.symm.trans hst, (h.clk (by simp [hs])).symm.trans hlow⟩

theorem Calm.keepsTables (h : Calm j s t) (htmr : TimerInv s.tmr) : KeepsTables s t := by
  refine ⟨fun i hs => .inl ((h.undisturbed i).keepsTimer hs (h.owner i).mpr),
    fun hr hst hlow => .inr ((h.undisturbed .P).holdoff hr hst hlow), fun hs hcfg i => ?_⟩
  exact (h.undisturbed i).bounded (hs i) hcfg fun ho => ⟨(h.owner i).mp ho, h.count i htmr ho⟩

theorem rowAt_of_engine {r : Row} (he : engineOf i (t.inst i).role = some e) (hr : rowOf e (t.inst i).st = some r) :
    rowAt i t = some r := by
  simp [rowAt, he, hr]

theorem Lands.keepsTimer (hl : Lands B i e v s t) (he : engineOf i (t.inst i).role = some e) : KeepsTimer i t := by
  obtain ⟨r, h⟩ := hl
  intro r' hr' hk
  cases (rowAt_of_engine he h.row).symm.trans hr'
  obtain ⟨k, hk⟩ := Option.ne_none_iff_exists'.mp hk
  rw [h.timed k hk]

theorem Lands.bounded (hl : Lands True i e v s t) (he : engineOf i (t.inst i).role = some e) : Bounded i t := by
  obtain ⟨r, h⟩ := hl
  intro r' hr'
  cases (rowAt_of_engine he h.row).symm.trans hr'
  refine ⟨fun k hk _ => ?_, h.fits.bound trivial⟩
  rw [h.timed k hk]
  exact BitVec.le_refl _

/-- A rule keeps the tables: `s` is the state before the taking of the notification, or before the role is given, and
`s₀` the one after it, in which the rule starts. -/
theorem TouchesOnly.keepsTables (hf : TouchesOnly i s₀ t) (he : engineOf i (s₀.inst i).role = some e)
    (hl : ∀ B, (B → Bounded i s) → Lands B i e v s₀ t) (hst : (s₀.inst i).st = (s.inst i).st)
    (hu : Undisturbed (otherInst i) s s₀) (ho : s₀.tmr = s.tmr ∨ s.tmr.owner = ownerOf i ∧ s₀.tmr.owner = .none)
    (hcfg : s₀.cfg = s.cfg) : KeepsTables s t := by
  have he' : engineOf i (t.inst i).role = some e := by rwa [hf.role]
  refine ⟨fun k hk => ?_, fun hr hs hlow => ?_, fun hb _ k => ?_⟩
  · rcases inst_cases i k with rfl | rfl
    · exact .inl ((hl False nofun).keepsTimer he')
    · by_cases hi : t.tmr.owner = ownerOf i
      · exact .inr (by rw [otherInst_otherInst, hi])
      · refine .inl (hf.undisturbed.keepsTimer (hu.keepsTimer hk fun hs => ?_) fun hs => ?_)
        · rcases ho with ho | ⟨ho, -⟩
          · rw [ho, hs]
          · exact absurd (ho.symm.trans hs) (ownerOf_ne_other i)
        · rcases hf.owner with h | h | h
          · exact h.trans hs
          · exact absurd h hi
          · exact absurd (h.symm.trans hs) (ownerOf_ne_other i)
  · obtain ⟨r, hland⟩ := hl False nofun
    cases i with
    | P =>
      have hdev : e = .p2d := by
        have he' : engineOf .P t.p.role = some e := he'
        rw [hr] at he'
        exact (Option.some.inj he').symm
      exact .inl (hst.symm.trans (hland.holdoff hdev hs hlow))
    | X =>
      obtain ⟨hs, hlow⟩ := hf.undisturbed.holdoff hr hs hlow
      have hr : s₀.p.role = .device := hf.undisturbed.role.symm.trans hr
      exact .inr (hu.holdoff hr hs hlow)
  · rcases inst_cases i k with rfl | rfl
    · exact (hl True fun _ => hb k).bounded he'
    · obtain ⟨r, hland⟩ := hl False nofun
      refine hf.undisturbed.bounded (hu.bounded (hb _) hcfg fun hs => ?_) hf.cfg fun ht => ?_
      · rcases ho with ho | ⟨-, ho⟩
        · rw [← ho]; exact ⟨hs, BitVec.le_refl _⟩
        · exact absurd (hs.symm.trans ho) (ownerOf_ne_none _)
      · have hsame := hland.tmr_of_other ht
        rw [← hsame]
        exact ⟨ht, BitVec.le_refl _⟩

theorem Takes.keepsTables {body : State → State} (h : Takes s i v taken) (hs : BlockInv s)
    (he : engineOf i (taken.inst i).role = some e) (hb : IsRule e (taken.inst i).st v body) :
    KeepsTables s (body taken) := by
  have htouch := h.touches.1
  have hf := hb.touches taken
  have hl : ∀ B, (B → Bounded i s) → Lands B i e v taken (body taken) := fun B hB => by
    have hland := hb.lands B taken
    rw [engineInst_of_engineOf he] at hland
    exact hland (h.stands hs hB he)
  rw [engineInst_of_engineOf he] at hf
  refine hf.keepsTables he hl ?_ htouch.undisturbed ?_ htouch.cfg
  · cases h <;> simp
  · cases h with
    | edge h => exact .inl (by simp)
    | timer h ho => exact .inr ⟨ho, rfl⟩

theorem exec_keepsTables (h : exec j s = .next t) (hs : BlockInv s) : KeepsTables s t := by
  have ⟨_, _, htmr, hcfg, _⟩ := hs
  cases exec_ran h with
  | @rule e c v body hj hr hc hb =>
    have he : engineOf (engineInst e).1 (s.inst (engineInst e).1).role = some e := hr ▸ engineOf_engineInst e
    exact (hb.touches s).keepsTables he (fun B hB => hb.lands B s (hc ▸ (hs.inst _).stands he hcfg hB)) rfl
      (Undisturbed.refl _ s) (.inl rfl) rfl
  | handler ht he hb => exact (ht.keepsTables hs he hb).detectEdges s
  | act hd ha =>
    refine KeepsTables.detectEdges ?_ s
    cases ha with
    | calm hc => exact hc.keepsTables htmr
    | engine he hf hl =>
      exact hf.keepsTables he (fun B hB => hl B ((hs.inst _).stands he hcfg hB)) rfl (Undisturbed.refl _ s) (.inl rfl)
        rfl
    | @init k ρ e u hj hn he hf hp hl =>
      exact hf.keepsTables (by simpa using he) (fun B _ => hl hcfg B) (by simp)
        (by constructor <;> simp [modInst_inst_other]) (.inl (by simp)) (by simp)

/-- Settles O60: the clauses without the invariant from what an operation may do to an instance without a role, the
others from where rules land. -/
theorem tablesAcrossSteps : Obligations.TablesAcrossSteps := by
  refine ⟨fun js s t i h hs hjs => runOps_releasedUnclaimed h hs ?_, fun j s t h => ⟨?_, ?_, ?_, exec_keepsTables h⟩⟩
  · rintro j hj ⟨l, n, rfl, hl, hn⟩
    exact hjs l n hj hl hn
  · exact fun n i hn hi => (exec_leavesUnclaimed h hi).1 n hn
  · exact fun i hs => or_iff_not_imp_right.mpr (exec_releasedUnclaimed h hs)
  · exact fun i hi => (exec_leavesUnclaimed h hi).2

end Sys2Proof.Machine
end

section
/-!
PROOF. Queues are first in, first out, for any number of slots (spec/20_memory.md R41 to R45, R47). The bytes of a
queue are the slots from `tail` on, and `count` is the one number below `n` of steps that leads from `tail` to `head`:
from that follow the count after a `push` and a `pop`, and that the slot a `push` writes holds no queued byte.
-/

namespace Sys2Proof.Machine

open Sys2Proof

variable {n : Nat} {q : Queue}

/-! ## The slots in use -/

/-- Fewer than `n` steps from one slot reach no slot twice. -/
theorem slot_inj {t k c : Nat} (hk : k < n) (hc : c < n) : (t + k) % n = (t + c) % n ↔ k = c :=
  ⟨fun h => Nat.ModEq.eq_of_lt_of_lt (Nat.ModEq.add_left_cancel' t h) hk hc, fun h => h ▸ rfl⟩

/-- Advancing the index first is one more step. -/
theorem nextIndex_add (t k : Nat) : (nextIndex n t + k) % n = (t + (k + 1)) % n := by
  rw [nextIndex, Nat.mod_add_mod, Nat.add_assoc, Nat.add_comm 1]

/-- Advancing the index last is one more step. -/
theorem nextIndex_slot (t k : Nat) : nextIndex n ((t + k) % n) = (t + (k + 1)) % n := by
  rw [nextIndex, Nat.mod_add_mod, Nat.add_assoc]

theorem Queue.count_lt (h : q.wf n) : q.count n < n := Nat.mod_lt _ (Nat.zero_lt_of_lt h.2.1)

/-- The slots in use end at `head`. -/
theorem Queue.slot_count (h : q.wf n) : (q.tail + q.count n) % n = q.head := by
  obtain ⟨-, hh, ht⟩ := h
  have hsum : q.tail + (q.head + n - q.tail) = q.head + n := by omega
  rw [Queue.count, Nat.add_mod_mod, hsum, Nat.add_mod_right, Nat.mod_eq_of_lt hh]

theorem Queue.count_eq_iff {c : Nat} (h : q.wf n) (hc : c < n) : q.count n = c ↔ (q.tail + c) % n = q.head := by
  rw [← slot_inj (t := q.tail) (Queue.count_lt h) hc, Queue.slot_count h, eq_comm]

theorem Queue.empty_iff (h : q.wf n) : q.empty = true ↔ q.count n = 0 := by
  obtain ⟨-, hh, ht⟩ := id h
  rw [Queue.empty, beq_iff_eq, q.count_eq h]
  split <;> omega

theorem Queue.full_iff (h : q.wf n) : q.full n = true ↔ q.count n + 1 = n := by
  obtain ⟨-, hh, ht⟩ := id h
  rw [Queue.full, beq_iff_eq, nextIndex_eq hh, q.count_eq h]
  split <;> split <;> omega

theorem Queue.count_put (v : Byte) (h : q.wf n) (hroom : q.full n = false) : (q.put n v).count n = q.count n + 1 := by
  have hcount := Queue.count_lt h
  have hlast : q.count n + 1 ≠ n := by simpa [hroom] using Queue.full_iff h
  rw [Queue.count_eq_iff (Queue.wf_put q v h) (by omega)]
  calc (q.tail + (q.count n + 1)) % n = nextIndex n ((q.tail + q.count n) % n) := (nextIndex_slot _ _).symm
    _ = nextIndex n q.head := by rw [Queue.slot_count h]

theorem Queue.count_drop (h : q.wf n) (hsome : q.empty = false) : q.count n = (q.drop n).count n + 1 := by
  have hcount := Queue.count_lt h
  have hpos : q.count n ≠ 0 := by simpa [hsome] using Queue.empty_iff h
  obtain ⟨k, hk⟩ := Nat.exists_eq_add_one_of_ne_zero hpos
  have hdrop : (q.drop n).count n = k := by
    rw [Queue.count_eq_iff (Queue.wf_drop q h) (by omega)]
    calc (nextIndex n q.tail + k) % n = (q.tail + (k + 1)) % n := nextIndex_add _ _
      _ = q.head := by rw [← hk, Queue.slot_count h]
  rw [hdrop, hk]

/-! ## The bytes queued -/

theorem Queue.length_toList (q : Queue) : (q.toList n).length = q.count n := by simp [Queue.toList]

/-- `push` with room: the slots already in use are not the one written, and that one is the last in use afterwards. -/
theorem Queue.toList_put (v : Byte) (h : q.wf n) (hroom : q.full n = false) :
    (q.put n v).toList n = q.toList n ++ [v] := by
  have hold : ∀ k ∈ List.range (q.count n),
      Memory.read (q.put n v).buf ((q.tail + k) % n) = Memory.read q.buf ((q.tail + k) % n) := by
    intro k hk
    have hlt := List.mem_range.mp hk
    refine Memory.read_write_other _ v fun heq => hlt.ne' ?_
    exact (Queue.count_eq_iff h (hlt.trans (Queue.count_lt h))).mpr heq
  have hnew : Memory.read (q.put n v).buf ((q.tail + q.count n) % n) = v := by
    rw [Queue.slot_count h]
    exact Memory.read_write_same _ _ v h.1.1
  rw [Queue.toList, Queue.count_put v h hroom, List.range_succ, List.map_append, List.map_singleton]
  exact congrArg₂ _ (List.map_congr_left hold) (congrArg (fun b => [b]) hnew)

/-- `pop`: the first slot in use is the one at `tail`, and the others are the slots in use afterwards. -/
theorem Queue.toList_eq_front_cons (h : q.wf n) (hsome : q.empty = false) :
    q.toList n = q.front :: (q.drop n).toList n := by
  have hfirst : (q.tail + 0) % n = q.tail := Nat.mod_eq_of_lt h.2.2
  have hrest (k : Nat) : (q.tail + (k + 1)) % n = ((q.drop n).tail + k) % n := (nextIndex_add _ _).symm
  rw [Queue.toList, Queue.count_drop h hsome, List.range_succ_eq_map, List.map_cons, hfirst, List.map_map]
  simp only [Function.comp_def, Nat.succ_eq_add_one, hrest]
  rfl

theorem Queue.toList_clear (n : Nat) (q : Queue) : q.clear.toList n = [] := by
  simp [Queue.toList, Queue.count, Queue.clear]

/-- Settles O25: the slots in use after each operation, and the equations of `push`. -/
theorem queuesAreFifo : Obligations.QueuesAreFifo := by
  refine ⟨fun n q v h hroom => ⟨Queue.toList_put v h hroom, fun a ha => Memory.read_write_other q.buf v ha⟩,
    fun n q h hsome => ⟨Queue.toList_eq_front_cons h hsome, rfl⟩, fun n q => ⟨Queue.toList_clear n q, rfl⟩,
    fun n q h => ⟨?_, ?_⟩, fun i d v s => push_full s i d v, fun i d v s => push_room s i d v⟩
  · rw [Queue.length_toList, Queue.full_iff h]
  · rw [← List.length_eq_zero_iff, Queue.length_toList, Queue.empty_iff h]

end Sys2Proof.Machine
end

section
/-!
PROOF. The code spaces decode and encode each other (spec/30_encoding.md R60 to R62, R65 to R67, R69). A word is put
together from its fields and taken apart into them; with that, each unit's table is read once in either direction.
-/

namespace Sys2Proof

open Sys2Proof.Machine

/-! ## Words and their fields -/

/-- The word of a unit, an operation code and an operand (R65, R67). -/
def wordOf (unit op : BitVec 4) (x : Byte) : Word16 := unit ++ op ++ x

section Fields

variable (unit op : BitVec 4) (x : Byte)

@[simp] theorem wordOf_unit : (wordOf unit op x).extractLsb' 12 4 = unit := by
  rw [wordOf, BitVec.extractLsb'_append_eq_of_le (by decide)]
  exact BitVec.extractLsb'_append_eq_left

@[simp] theorem wordOf_op : (wordOf unit op x).extractLsb' 8 4 = op := by
  rw [wordOf, BitVec.extractLsb'_append_eq_of_le (by decide)]
  exact BitVec.extractLsb'_append_eq_right

@[simp] theorem wordOf_operand : (wordOf unit op x).extractLsb' 0 8 = x := BitVec.extractLsb'_append_eq_right

/-- A field of the operand. -/
theorem wordOf_operandField {start len : Nat} (h : start + len ≤ 8) :
    (wordOf unit op x).extractLsb' start len = x.extractLsb' start len :=
  BitVec.extractLsb'_append_eq_of_add_le h

@[simp] theorem wordOf_bit_zero : (wordOf unit op x).getLsbD 0 = x.getLsbD 0 :=
  BitVec.getLsbD_append.trans (if_pos (by decide))

end Fields

/-- Every word is the word of its fields. -/
theorem wordOf_fields (w : Word16) : wordOf (w.extractLsb' 12 4) (w.extractLsb' 8 4) (w.extractLsb' 0 8) = w := by
  have hop : w.extractLsb' 12 4 ++ w.extractLsb' 8 4 = w.extractLsb' 8 8 :=
    BitVec.extractLsb'_append_extractLsb'_eq_extractLsb' rfl
  rw [wordOf, hop]
  exact BitVec.extractLsb'_append_extractLsb'

/-- An operand of one bit is an instance (R66). -/
theorem code_ofBit_getLsbD {n : Nat} (x : BitVec n) : (Inst.ofBit (x.getLsbD 0)).code = x.extractLsb' 0 1 := by
  rw [BitVec.eq_of_getLsbD_eq_iff]
  intro k hk
  obtain rfl : k = 0 := by omega
  cases h : x.getLsbD 0 <;> simp [Inst.ofBit, Inst.code, h]

/-! ## Command words -/

/-- The table of a unit of the command port (R66). -/
def decodeUnit (unit op : BitVec 4) (x : Byte) : Except DecodeError Instr :=
  match unit.toNat with
  | 0 => decodeLineUnit op x
  | 1 => decodeTimerUnit op x
  | 2 => decodeEdgeUnit op x
  | 3 => decodePUnit op x
  | 4 => decodeXUnit op x
  | 5 => .ok (.cfgWr op x)
  | 6 => noOperand x (.cfgRd op)
  | _ => .error .unknownUnit

/-- A command word is decoded by its fields (R65). -/
theorem decodeCommand_eq (w : Word16) :
    decodeCommand w = decodeUnit (w.extractLsb' 12 4) (w.extractLsb' 8 4) (w.extractLsb' 0 8) := rfl

theorem decodeCommand_wordOf (unit op : BitVec 4) (x : Byte) :
    decodeCommand (wordOf unit op x) = decodeUnit unit op x := by
  rw [decodeCommand_eq, wordOf_unit, wordOf_op, wordOf_operand]

theorem decode_command (unit op : BitVec 4) (x : Byte) :
    decode (.command (wordOf unit op x)) = decodeUnit unit op x := decodeCommand_wordOf unit op x

/-- `EDGE.SET` has the instance in operand bit 0 and the mode in bits 2:1 (R66). -/
theorem decodeEdgeUnit_set (i : Inst) (m : BitVec 2) :
    decodeEdgeUnit 0 ((0 : BitVec 5) ++ m ++ i.code) = .ok (.edgeSet i m) := by
  cases i <;> decide +revert

theorem decodeEdgeUnit_status (i : Inst) : decodeEdgeUnit 1 ((0 : BitVec 7) ++ i.code) = .ok (.edgeStatus i) := by
  cases i <;> rfl

/-! ## Event words -/

/-- The table of unit 15 (R67). -/
def decodeEventUnit (op : BitVec 4) (x : Byte) : Except DecodeError Instr :=
  match op.toNat with
  | 0 => noOperand x .envTick
  | 1 => if x.extractLsb' 4 4 = 0 then .ok (.envLow (x.extractLsb' 0 4)) else .error .operandNotZero
  | 2 => if x.extractLsb' 4 4 = 0 then .ok (.envRel (x.extractLsb' 0 4)) else .error .operandNotZero
  | 3 => if x.extractLsb' 1 7 = 0 then .ok (.irqEdge (Inst.ofBit (x.getLsbD 0))) else .error .operandNotZero
  | 4 => noOperand x .irqTmr
  | _ => .error .unknownOp

/-- An event word is decoded by its fields (R67). -/
theorem decodeEvent_wordOf (op : BitVec 4) (x : Byte) : decodeEvent (wordOf 15 op x) = decodeEventUnit op x := by
  have hhi : (wordOf 15 op x).extractLsb' 4 4 = x.extractLsb' 4 4 := wordOf_operandField _ _ _ (by decide)
  have hlo : (wordOf 15 op x).extractLsb' 0 4 = x.extractLsb' 0 4 := wordOf_operandField _ _ _ (by decide)
  have hrest : (wordOf 15 op x).extractLsb' 1 7 = x.extractLsb' 1 7 := wordOf_operandField _ _ _ (by decide)
  simp only [decodeEvent, wordOf_unit, wordOf_op, wordOf_operand, wordOf_bit_zero, hhi, hlo, hrest] <;> rfl

/-! ## Dispatch keys -/

theorem St.code_of_ofCode {b : BitVec 5} {c : St} (h : St.ofCode b = some c) : c.code = b := by decide +revert

@[simp] theorem Engine.code_ofCode (b : BitVec 2) : (Engine.ofCode b).code = b := by decide +revert

/-- The key of a triple's transition is the transition's encoding (R69). -/
theorem encode_eq_dispatchKey {e : Engine} {c : St} {v : Ev} {j : Instr} (h : transitionOf e c v = some j) :
    encode j = .key (dispatchKey e c v) := by
  cases e <;> cases c <;> cases v <;> cases h <;> rfl

/-! ## Frames -/

/-- A byte is put together from its symbols (R46). -/
@[simp] theorem byteOfSymbols_bits (v : Byte) :
    byteOfSymbols (v.getLsbD 0) (v.getLsbD 1) (v.getLsbD 2) (v.getLsbD 3) (v.getLsbD 4) (v.getLsbD 5) (v.getLsbD 6)
      (v.getLsbD 7) = v := by
  decide +revert

@[simp] theorem dataSymbols_byteOfSymbols (a b c d e f g h : Bool) :
    dataSymbols (byteOfSymbols a b c d e f g h) = [a, b, c, d, e, f, g, h] := by
  decide +revert

/-! ## Every operation -/

/-- A transition's key selects it (R69). -/
theorem decode_encode_of_key {i : Instr} {k : Byte} (h : encode i = .key k) : decode (encode i) = .ok i := by
  obtain ⟨e, c, v, hj⟩ := exists_triple_of_key h
  simp only [encode_eq_dispatchKey hj, decode, decodeKey_dispatchKey, hj]

/-- Settles O2: a command or event word by the table of its unit, a key by its triple, a frame by its symbols. -/
theorem decodeOfEncode : Obligations.DecodeOfEncode := by
  intro i
  cases i
  case lineAssert l => exact decode_command 0 0 l
  case lineRelease l => exact decode_command 0 1 l
  case lineRead l => exact decode_command 0 2 l
  case tmrArm d => exact decode_command 1 0 d
  case tmrDisable | tmrStatus => rfl
  case edgeSet j m => exact (decode_command 2 0 _).trans (decodeEdgeUnit_set j m)
  case edgeStatus j => exact (decode_command 2 1 _).trans (decodeEdgeUnit_status j)
  case pInit rr => exact decode_command 3 0 rr
  case pPut b => exact decode_command 3 1 b
  case xInit rr => exact decode_command 4 0 rr
  case xPut b => exact decode_command 4 1 b
  case pGet | pRxcount | pTxcount | pReset | pState => rfl
  case xGet | xRxcount | xTxcount | xReset | xState | xHreset => rfl
  case cfgWr r v => exact decode_command 5 r v
  case cfgRd r => exact decode_command 6 r 0
  case envTick | irqTmr => rfl
  case envLow | envRel => decide +revert
  case irqEdge j => cases j <;> rfl
  case framePs2D2h | framePs2H2d =>
    simp only [encode, decode, dataSymbols, List.cons_append, List.nil_append, decodeFrame, byteOfSymbols_bits,
      and_self, if_true]
  case frameXtD2h => simp only [encode, decode, dataSymbols, decodeFrame, byteOfSymbols_bits]
  -- the 45 dispatch keys
  all_goals exact decode_encode_of_key rfl

end Sys2Proof
end

section
/-!
PROOF. Every word has at most one meaning (spec/30_encoding.md R66, R67, R69, R60 to R62): a table entry that decodes
fixes its operation code and the operand bits that must be 0, so the word is the entry's encoding.
-/

namespace Sys2Proof

open Sys2Proof.Machine

section Inverse

variable {unit op : BitVec 4} {x : Byte} {i a : Instr}

theorem of_ite_ok {p : Prop} [Decidable p] {d : DecodeError} (h : (if p then .ok a else .error d) = Except.ok i) :
    p ∧ i = a := by
  split at h <;> cases h
  exact ⟨‹p›, rfl⟩

theorem of_noOperand (h : noOperand x a = .ok i) : x = 0 ∧ i = a := of_ite_ok h

theorem eq_ofNat_of_toNat {n k : Nat} {b : BitVec n} (h : b.toNat = k) : b = BitVec.ofNat n k := by
  rw [← h, BitVec.ofNat_toNat, BitVec.setWidth_eq]

/-- An operand whose high bits are 0 is its low bits. -/
theorem operand_of_high_zero {hi lo : Nat} {x : BitVec (hi + lo)} (h : x.extractLsb' lo hi = 0) :
    (0 : BitVec hi) ++ x.extractLsb' 0 lo = x := by
  rw [← h, BitVec.extractLsb'_append_extractLsb']

theorem encode_of_decodeLineUnit (h : decodeLineUnit op x = .ok i) : encode i = .command (wordOf 0 op x) := by
  unfold decodeLineUnit at h
  split at h <;> rename_i hop
  case h_4 => cases h
  all_goals cases h; cases eq_ofNat_of_toNat hop; rfl

theorem encode_of_decodeTimerUnit (h : decodeTimerUnit op x = .ok i) : encode i = .command (wordOf 1 op x) := by
  unfold decodeTimerUnit at h
  split at h <;> rename_i hop
  case h_1 => cases h; cases eq_ofNat_of_toNat hop; rfl
  case h_4 => cases h
  all_goals obtain ⟨rfl, rfl⟩ := of_noOperand h; cases eq_ofNat_of_toNat hop; rfl

theorem encode_of_decodeEdgeUnit (h : decodeEdgeUnit op x = .ok i) : encode i = .command (wordOf 2 op x) := by
  unfold decodeEdgeUnit at h
  split at h <;> rename_i hop
  case h_1 =>
    obtain ⟨hx, rfl⟩ := of_ite_ok h
    cases eq_ofNat_of_toNat hop
    have hlow : x.extractLsb' 1 2 ++ x.extractLsb' 0 1 = x.extractLsb' 0 3 :=
      BitVec.extractLsb'_append_extractLsb'_eq_extractLsb' rfl
    have hoperand : (0 : BitVec 5) ++ x.extractLsb' 1 2 ++ (Inst.ofBit (x.getLsbD 0)).code = x := by
      rw [code_ofBit_getLsbD]
      exact (BitVec.append_assoc ..).trans (hlow ▸ operand_of_high_zero hx)
    rw [encode, hoperand]
    rfl
  case h_2 =>
    obtain ⟨hx, rfl⟩ := of_ite_ok h
    cases eq_ofNat_of_toNat hop
    rw [encode, code_ofBit_getLsbD, operand_of_high_zero hx]
    rfl
  case h_3 => cases h

theorem encode_of_decodePUnit (h : decodePUnit op x = .ok i) : encode i = .command (wordOf 3 op x) := by
  unfold decodePUnit at h
  split at h <;> rename_i hop
  case h_1 | h_2 => cases h; cases eq_ofNat_of_toNat hop; rfl
  case h_8 => cases h
  all_goals obtain ⟨rfl, rfl⟩ := of_noOperand h; cases eq_ofNat_of_toNat hop; rfl

theorem encode_of_decodeXUnit (h : decodeXUnit op x = .ok i) : encode i = .command (wordOf 4 op x) := by
  unfold decodeXUnit at h
  split at h <;> rename_i hop
  case h_1 | h_2 => cases h; cases eq_ofNat_of_toNat hop; rfl
  case h_9 => cases h
  all_goals obtain ⟨rfl, rfl⟩ := of_noOperand h; cases eq_ofNat_of_toNat hop; rfl

theorem encode_of_decodeUnit (h : decodeUnit unit op x = .ok i) : encode i = .command (wordOf unit op x) := by
  unfold decodeUnit at h
  split at h <;> rename_i hunit
  case h_8 => cases h
  all_goals cases eq_ofNat_of_toNat hunit
  · exact encode_of_decodeLineUnit h
  · exact encode_of_decodeTimerUnit h
  · exact encode_of_decodeEdgeUnit h
  · exact encode_of_decodePUnit h
  · exact encode_of_decodeXUnit h
  · cases h; rfl
  · obtain ⟨rfl, rfl⟩ := of_noOperand h; rfl

theorem encode_of_decodeCommand {w : Word16} (h : decodeCommand w = .ok i) : encode i = .command w := by
  rw [← wordOf_fields w] at h ⊢
  rw [decodeCommand_wordOf] at h
  exact encode_of_decodeUnit h

theorem encode_envLow (l : BitVec 4) : encode (.envLow l) = .event (wordOf 15 1 ((0 : BitVec 4) ++ l)) := by
  decide +revert

theorem encode_envRel (l : BitVec 4) : encode (.envRel l) = .event (wordOf 15 2 ((0 : BitVec 4) ++ l)) := by
  decide +revert

theorem encode_irqEdge (j : Inst) : encode (.irqEdge j) = .event (wordOf 15 3 ((0 : BitVec 7) ++ j.code)) := by
  cases j <;> rfl

theorem encode_of_decodeEventUnit (h : decodeEventUnit op x = .ok i) : encode i = .event (wordOf 15 op x) := by
  unfold decodeEventUnit at h
  split at h <;> rename_i hop
  case h_6 => cases h
  case h_1 | h_5 => obtain ⟨rfl, rfl⟩ := of_noOperand h; cases eq_ofNat_of_toNat hop; rfl
  all_goals obtain ⟨hx, rfl⟩ := of_ite_ok h; cases eq_ofNat_of_toNat hop
  · rw [encode_envLow, operand_of_high_zero hx]; rfl
  · rw [encode_envRel, operand_of_high_zero hx]; rfl
  · rw [encode_irqEdge, code_ofBit_getLsbD, operand_of_high_zero hx]; rfl

theorem encode_of_decodeEvent {w : Word16} (h : decodeEvent w = .ok i) : encode i = .event w := by
  have hunit : w.extractLsb' 12 4 = 15 := by
    unfold decodeEvent at h
    split at h
    · cases h
    case isFalse hunit => exact not_not.mp hunit
  rw [← wordOf_fields w, hunit] at h ⊢
  rw [decodeEvent_wordOf] at h
  exact encode_of_decodeEventUnit h

theorem encode_of_decodeKey {k : Byte} (h : decodeKey k = some i) : encode i = .key k := by
  unfold decodeKey at h
  split at h
  case h_1 c hc =>
    have hev : (Ev.ofBit (k.getLsbD 0)).code = k.extractLsb' 0 1 := by
      rw [← code_ofBit_getLsbD]
      cases k.getLsbD 0 <;> rfl
    have hlow : k.extractLsb' 6 2 ++ k.extractLsb' 1 5 = k.extractLsb' 1 7 :=
      BitVec.extractLsb'_append_extractLsb'_eq_extractLsb' rfl
    rw [encode_eq_dispatchKey h, dispatchKey, Engine.code_ofCode, St.code_of_ofCode hc, hev, hlow]
    exact congrArg _ BitVec.extractLsb'_append_extractLsb'
  case h_2 => cases h

theorem encode_of_decodeFrame {f : FrameKind} {symbols : List Bool} {half : Nat}
    (h : decodeFrame f symbols half = .ok i) : encode i = .frame f symbols half := by
  unfold decodeFrame at h
  split at h
  case h_1 =>
    obtain ⟨⟨rfl, rfl, rfl⟩, rfl⟩ := of_ite_ok h
    rw [encode, dataSymbols_byteOfSymbols]
    rfl
  case h_2 =>
    obtain ⟨⟨rfl, rfl, rfl, rfl⟩, rfl⟩ := of_ite_ok h
    rw [encode, dataSymbols_byteOfSymbols]
    rfl
  case h_3 => cases h; rw [encode, dataSymbols_byteOfSymbols]
  case h_4 => cases h

end Inverse

/-- Settles O3: in each code space the table is read backwards. -/
theorem encodeOfDecode : Obligations.EncodeOfDecode := by
  intro c i h
  cases c with
  | command w => exact encode_of_decodeCommand h
  | event w => exact encode_of_decodeEvent h
  | key k =>
    cases hk : decodeKey k with
    | none => simp [decode, hk] at h
    | some a => simp only [decode, hk, Except.ok.injEq] at h; exact encode_of_decodeKey (h ▸ hk)
  | frame f symbols half => exact encode_of_decodeFrame h

/-- Settles O1: the eleven words by evaluation, the 45 triples by their keys. -/
theorem specWordsDecode : Obligations.SpecWordsDecode := by
  refine ⟨rfl, rfl, rfl, rfl, rfl, rfl, rfl, rfl, rfl, rfl, rfl, fun e c v j h => ?_⟩
  have hkey : encode j = .key (e.code ++ c.code ++ v.code) := encode_eq_dispatchKey h
  exact ⟨hkey, hkey ▸ decodeOfEncode j⟩

end Sys2Proof
end

section
/-!
PROOF. Eight `put_bit()` send a byte and eight `get_bit()` assemble one, least significant bit first
(spec/30_encoding.md R63, R64; 20_memory.md R46). `Sends` follows the sender's registers, `Gets` the receiver's.
-/

namespace Sys2Proof.Machine

open Sys2Proof

variable {i : Inst} {v : Byte} {n : Nat} {s : State} {w : InstState}

/-! ## Symbols of a byte -/

theorem dataSymbols_eq_map (v : Byte) : dataSymbols v = (List.range 8).map v.getLsbD := rfl

/-- The ones of a byte, counted by bit. -/
theorem popcount_eq (v : Byte) : popcount v = ((List.range 8).filter v.getLsbD).length := by
  rw [popcount, dataSymbols_eq_map, List.count_eq_countP, List.countP_map, List.countP_eq_length_filter]
  congr 2
  funext k
  simp

theorem count_symbolsPut_le (v : Byte) (n : Nat) : (symbolsPut v n).count true ≤ n :=
  List.count_le_length.trans (List.length_take_le _ _)

@[simp] theorem symbolsPut_all (v : Byte) : symbolsPut v 8 = dataSymbols v := rfl

/-! ## The sender -/

/-- `put_bit()` (R63) while `n` symbols of `v` have left: the next one goes on DATA. -/
theorem Sends.putBit (h : Sends v (s.inst i)) (hn : (s.inst i).bitcnt.toNat = n) (hlt : n < 8) :
    Sends v ((putBit i s).inst i) ∧ ((putBit i s).inst i).bitcnt.toNat = n + 1 ∧
    (putBit i s).own.get (dataOf i) = driveOf (v.getLsbD n) := by
  have hones : (s.inst i).ones.toNat ≤ (s.inst i).bitcnt.toNat := h.2 ▸ count_symbolsPut_le v _
  subst hn
  rw [putBit_eq]
  simp only [modInst_inst_same, setOwn_inst, modInst_own, setOwn_own, LineBank.get_set_same]
  exact ⟨h.put hlt hones, by bv_omega, by rw [h.getLsbD, driveOf]⟩

/-- Settles O26: `put_bit()` keeps `Sends v`, and after eight nothing of `v` is left in `acc`. -/
theorem eightPutBits : Obligations.EightPutBits := by
  intro i v s after count
  have hsends (k : Nat) (hk : k ≤ 8) : Sends v ((after k).inst i) ∧ ((after k).inst i).bitcnt.toNat = k := by
    induction k with
    | zero => simp [after, Sends, symbolsPut]
    | succ k ih =>
      obtain ⟨hs, hc⟩ := ih (by omega)
      obtain ⟨hs', hc', -⟩ := hs.putBit hc (by omega)
      simp only [after, Function.iterate_succ_apply']
      exact ⟨hs', hc'⟩
  obtain ⟨hs, hc⟩ := hsends 8 (le_refl 8)
  have hones : ((after 8).inst i).ones.toNat = count := by rw [hs.2, hc, symbolsPut_all]; exact popcount_eq v
  refine ⟨fun k hk => ?_, ?_, ?_, hones, ?_⟩
  · obtain ⟨hs, hc⟩ := hsends k (by omega)
    obtain ⟨-, -, hdata⟩ := hs.putBit hc hk
    simp only [after, Function.iterate_succ_apply']
    exact hdata
  · rw [hs.1, hc, BitVec.ushiftRight_eq_zero (le_refl 8)]
    rfl
  · bv_omega
  · rw [parityBit, hones]

/-! ## The receiver -/

/-- `n` symbols of `v` have entered `acc` from the top, and are counted (R46, R63). -/
def Gets (v : Byte) (n : Nat) (w : InstState) : Prop :=
  w.acc = v <<< (8 - n) ∧ w.bitcnt.toNat = n ∧ w.ones.toNat = (symbolsPut v n).count true

/-- The next symbol enters where the symbols before it have moved down from. -/
theorem shiftIn_shiftLeft (v : Byte) {n : Nat} (h : n < 8) :
    v <<< (8 - n) >>> 1 ||| (if v.getLsbD n then 0x80 else 0) = v <<< (8 - (n + 1)) := by
  revert v
  interval_cases n <;> decide

/-- `get_bit()` (R63) with the next symbol on DATA. -/
theorem Gets.getBit (h : Gets v n (s.inst i)) (hn : n < 8) (hd : level (dataOf i) s = v.getLsbD n) :
    Gets v (n + 1) ((getBit i s).inst i) := by
  obtain ⟨ha, hc, ho⟩ := h
  rw [getBit_eq]
  simp only [modInst_inst_same]
  refine ⟨?_, ?_, ?_⟩
  · simp only [ha, hd]
    exact shiftIn_shiftLeft v hn
  · simp only; bv_omega
  · simp only [symbolsPut_succ v hn, List.count_append, ← ho, hd]
    have hle := ho ▸ count_symbolsPut_le v n
    cases v.getLsbD n
    · simp
    · simp; omega

/-- After eight symbols the byte is whole. -/
theorem Gets.all (h : Gets v 8 w) : w.acc = v ∧ w.bitcnt = 8 ∧ w.ones.toNat = popcount v := by
  obtain ⟨ha, hc, ho⟩ := h
  exact ⟨by simpa using ha, by bv_omega, ho⟩

/-- A frame begins with nothing received. -/
theorem gets_start (ha : w.acc = 0) (hb : w.bitcnt = 0) (ho : w.ones = 0) : Gets v 0 w := by
  simp [Gets, ha, hb, ho, symbolsPut]

/-- DATA that the block has released shows the far end's symbol (R84). -/
theorem level_setExt_driveOf {l : Line} (h : s.own.get l = .rel) (b : Bool) : level l (setExt l (driveOf b) s) = b := by
  cases b <;> simp [level, h, driveOf]

/-- The far end puts the next symbol on DATA and `get_bit()` takes it (R63). -/
theorem Gets.sample (h : Gets v n (s.inst i)) (hn : n < 8) (hd : s.own.get (dataOf i) = .rel) :
    Gets v (n + 1) ((Machine.getBit i (setExt (dataOf i) (driveOf (v.getLsbD n)) s)).inst i) :=
  Gets.getBit (by simpa using h) hn (level_setExt_driveOf hd _)

/-- Settles O27: each symbol the far end shows enters as the next one of `Gets v`. -/
theorem eightGetBits : Obligations.EightGetBits := by
  intro i v s hrel sample t
  have hgets (k : Nat) (hk : k ≤ 8) :
      Gets v k (((List.range k).foldl (fun t k => sample k t) (frameStart i 0 s)).inst i) ∧
      ((List.range k).foldl (fun t k => sample k t) (frameStart i 0 s)).own = s.own := by
    induction k with
    | zero => exact ⟨gets_start (by simp) (by simp) (by simp), by simp⟩
    | succ k ih =>
      obtain ⟨hg, ho⟩ := ih (by omega)
      rw [List.range_succ, List.foldl_append]
      exact ⟨hg.sample (by omega) (by rw [ho, hrel]), by simpa [sample, getBit_eq] using ho⟩
  obtain ⟨hg, -⟩ := hgets 8 (le_refl 8)
  obtain ⟨ha, hc, hones⟩ := hg.all
  exact ⟨ha, hc, hones.trans (popcount_eq v)⟩

end Sys2Proof.Machine
end

section
/-!
PROOF. What the three frame rows put in front of `script` (spec/30_encoding.md R60 to R62, R73), in event words.
-/

namespace Sys2Proof.Machine

open Sys2Proof

section Events

variable (l : Line)

/-- `ENV.LOW L` as an event word (R67). -/
theorem envLow_eq : envLow l = [.event (0xF100 + (lineId l).setWidth 16)] := by cases l <;> rfl

/-- `ENV.REL L` as an event word (R67). -/
theorem envRel_eq : envRel l = [.event (0xF200 + (lineId l).setWidth 16)] := by cases l <;> rfl

/-- `ENV.SET L, b` as an event word (R73). -/
theorem envSet_eq (b : Bool) : envSet l b =
    [if b then .event (0xF200 + (lineId l).setWidth 16) else .event (0xF100 + (lineId l).setWidth 16)] := by
  cases b
  · exact envLow_eq l
  · exact envRel_eq l

end Events

/-- The parity symbol, counted by bit (R64). -/
theorem oddParity_eq (v : Byte) : oddParity v = (((List.range 8).filter v.getLsbD).length % 2 == 0) := by
  rw [oddParity, popcount_eq]

/-- Playing moves no line. -/
theorem asStep_play {s : State} (codes : List Code) (hd : deliverable s = none) :
    asStep (play codes) s = .next { s with script := codes ++ s.script } :=
  asStep_quiet s _ hd rfl fun _ => rfl

/-- Settles O24: each expansion, pseudo-operation by pseudo-operation, is the list of words. -/
theorem framesArePlayed : Obligations.FramesArePlayed := by
  intro v h s hd low rel put wait bit parity
  refine ⟨?_, ?_, ?_⟩
  · refine (asStep_play (envPs2D2h v h) hd).trans ?_
    simp only [envPs2D2h, envPs2Symbol, envLow_eq, envRel_eq, envSet_eq, envWait, dataSymbols, oddParity_eq,
      List.flatMap_cons, List.append_assoc, List.cons_append, List.nil_append]
    rfl
  · refine (asStep_play (envXtD2h v h) hd).trans ?_
    simp only [envXtD2h, envXtPulse, envLow_eq, envRel_eq, envSet_eq, envWait, dataSymbols, List.tail_cons,
      List.flatMap_cons, List.append_assoc, List.cons_append, List.nil_append]
    rfl
  · refine (asStep_play (envPs2H2d v (s.cfg.get .ps2hInhibitUs).toNat h) hd).trans ?_
    simp only [envPs2H2d, envLow_eq, envRel_eq, envSet_eq, envWait, dataSymbols, oddParity_eq, List.tail_cons,
      List.flatMap_cons, List.append_assoc, List.cons_append, List.nil_append]
    rfl

end Sys2Proof.Machine
end

section
/-!
PROOF. Whole frames as the block sends them (spec/30_encoding.md R60 to R62, with R122 to R124, R146 to R153, R195 to
R197). `Sending` is what holds between two transitions of a frame; each transition carries it on and shows one pair of
levels.
-/

namespace Sys2Proof.Machine

open Sys2Proof

/-! ## Runs that show the lines -/

/-- The run completes, shows `shown` on the lines of the instance, and ends in a state with `P`. -/
def Shows (i : Inst) (ops : List Instr) (shown : List (Bool × Bool)) (s : State) (P : State → Prop) : Prop :=
  ∃ t, runShowing i ops s = (.next t, shown) ∧ P t

section Shows

variable {i : Inst} {P Q : State → Prop} {s t : State}

theorem Shows.nil (h : P s) : Shows i [] [] s P := ⟨s, rfl, h⟩

theorem Shows.one {j : Instr} {clk data : Bool} (hj : exec j s = .next t) (hc : level (clkOf i) t = clk)
    (hd : level (dataOf i) t = data) (h : P t) : Shows i [j] [(clk, data)] s P :=
  ⟨t, by simp [runShowing, hj, hc, hd], h⟩

/-- A run goes on from where its first part has ended. -/
theorem runShowing_append {ops : List Instr} {x : List (Bool × Bool)} (h : runShowing i ops s = (.next t, x))
    (ops' : List Instr) :
    runShowing i (ops ++ ops') s = ((runShowing i ops' t).1, x ++ (runShowing i ops' t).2) := by
  induction ops generalizing s x with
  | nil => cases h; rfl
  | cons j rest ih =>
    cases hj : exec j s <;> simp only [List.cons_append, runShowing, hj, Prod.mk.injEq, reduceCtorEq, false_and] at h ⊢
    obtain ⟨hrest, rfl⟩ := h
    rw [ih (Prod.ext hrest rfl)]
    exact ⟨rfl, rfl⟩

/-- One run after the other. -/
theorem Shows.append {ops ops' : List Instr} {x y : List (Bool × Bool)} (h : Shows i ops x s P)
    (h' : ∀ t, P t → Shows i ops' y t Q) : Shows i (ops ++ ops') (x ++ y) s Q := by
  obtain ⟨t, hrun, hP⟩ := h
  obtain ⟨u, hrun', hQ⟩ := h' t hP
  exact ⟨u, by rw [runShowing_append hrun, hrun'], hQ⟩

end Shows

/-! ## Between two transitions of a frame -/

/-- The instance stands in the state `c` with `n` symbols of `v` put, its lines driven as given; everything else that
matters to the frame is as in `s₀`. -/
structure Sending (i : Inst) (c : St) (v : Byte) (n : Nat) (clk data : Bool) (s₀ s : State) : Prop where
  role : (s.inst i).role = (s₀.inst i).role
  st : (s.inst i).st = c
  sends : Sends v (s.inst i)
  count : (s.inst i).bitcnt.toNat = n
  clk : s.own.get (clkOf i) = driveOf clk
  data : s.own.get (dataOf i) = driveOf data
  ext : s.ext = s₀.ext
  cfg : s.cfg = s₀.cfg
  events : s.events = s₀.events

/-- The far end lets the lines of the instance go. -/
structure FarReleased (i : Inst) (s : State) : Prop where
  clk : s.ext.get (clkOf i) = .rel
  data : s.ext.get (dataOf i) = .rel

/-- A frame begins with its byte whole in `acc`. -/
theorem sending_start {i : Inst} {c : St} {v : Byte} {clk data : Bool} {s : State} (hst : (s.inst i).st = c)
    (hacc : (s.inst i).acc = v) (hb : (s.inst i).bitcnt = 0) (ho : (s.inst i).ones = 0)
    (hclk : s.own.get (clkOf i) = driveOf clk) (hdata : s.own.get (dataOf i) = driveOf data) :
    Sending i c v 0 clk data s s where
  role := rfl
  st := hst
  sends := hacc ▸ sends_start _ hb ho
  count := by simp [hb]
  clk := hclk
  data := hdata
  ext := rfl
  cfg := rfl
  events := rfl

namespace Sending

variable {i : Inst} {c : St} {v : Byte} {n : Nat} {clk data : Bool} {s₀ s : State}

section Operations

variable (h : Sending i c v n clk data s₀ s)
include h

/-- The end of a step: the timer is armed and the state register written. -/
theorem tick (d : St) (k : CfgReg) : Sending i d v n clk data s₀ (setSt i d (Machine.armCfg i k s)) := by
  cases i <;> exact { h with st := rfl }

theorem armCfg (k : CfgReg) : Sending i c v n clk data s₀ (armCfg i k s) := by cases i <;> exact { h with }

/-- CLOCK is driven. -/
theorem clock (b : Bool) : Sending i c v n b data s₀ (driveLine (clkOf i) b s) := by
  cases i <;> cases b <;> exact { h with clk := rfl }

/-- A symbol is put on DATA. -/
theorem symbol (b : Bool) : Sending i c v n clk b s₀ (driveLine (dataOf i) b s) := by
  cases i <;> cases b <;> exact { h with data := rfl }

/-- The next data symbol is put on DATA (R63). -/
theorem putBit (hn : n < 8) : Sending i c v (n + 1) clk (v.getLsbD n) s₀ (putBit i s) := by
  obtain ⟨hsends, hcount, hdata⟩ := h.sends.putBit h.count hn
  cases i <;> exact { h.symbol _ with sends := hsends, count := hcount, data := hdata }

theorem setHold (a : Byte) : Sending i c v n clk data s₀ (setHold i a s) := by cases i <;> exact { h with }

theorem setAckSeen (b : Bool) : Sending i c v n clk data s₀ (setAckSeen b s) := by cases i <;> exact { h with }

/-- The frame registers are cleared: nothing of a byte 0 is put. -/
theorem frameReset : Sending i c 0 0 clk data s₀ (frameReset i s) := by
  cases i <;> exact { h with sends := sends_start _ rfl rfl, count := rfl }

theorem level_clk : level (clkOf i) s = (clk && s₀.ext.get (clkOf i) == .rel) := by
  cases clk <;> simp [level, h.clk, h.ext, driveOf]

/-- CLOCK that both ends have released is high. -/
theorem clk_high (hclk : clk = true) (hfar : FarReleased i s₀) : level (clkOf i) s = true := by
  rw [h.level_clk, hclk, hfar.clk]
  rfl

theorem level_data (hfar : s₀.ext.get (dataOf i) = .rel) : level (dataOf i) s = data := by
  cases data <;> simp [level, h.data, h.ext, driveOf, hfar]

theorem parityBit (hn : n = 8) : parityBit i s = oddParity v :=
  h.sends.parity (BitVec.eq_of_toNat_eq (h.count.trans hn))

end Operations

/-- One transition of the frame. -/
theorem shows {j : Instr} {r : Role} {body : State → State} {c' : St} {n' : Nat} {clk' data' : Bool}
    (h : Sending i c v n clk data s₀ s) (hr : (s₀.inst i).role = r) (hj : ∀ s, exec j s = transition i r c body s)
    (h' : Sending i c' v n' clk' data' s₀ (body s)) (hfar : s₀.ext.get (dataOf i) = .rel) :
    Shows i [j] [(clk' && s₀.ext.get (clkOf i) == .rel, data')] s (Sending i c' v n' clk' data' s₀) :=
  Shows.one ((hj s).trans (transition_enabled s body (h.role.trans hr) h.st)) h'.level_clk (h'.level_data hfar) h'

/-- One transition of the frame, seen with the far end off the lines. -/
theorem shows_released {j : Instr} {r : Role} {body : State → State} {c' : St} {n' : Nat} {clk' data' : Bool}
    (h : Sending i c v n clk data s₀ s) (hr : (s₀.inst i).role = r) (hfar : FarReleased i s₀)
    (hj : ∀ s, exec j s = transition i r c body s) (h' : Sending i c' v n' clk' data' s₀ (body s)) :
    Shows i [j] [(clk', data')] s (Sending i c' v n' clk' data' s₀) := by
  simpa [hfar.clk] using h.shows hr hj h' hfar.data

theorem bitcnt_lt_iff (h : Sending i c v n clk data s₀ s) : (s.inst i).bitcnt < 8 ↔ n < 8 := by
  rw [← h.count, BitVec.lt_def]
  rfl

/-- The remaining data symbols, one after the other. -/
theorem shows_symbols {ops : List Instr} {stage : Nat → St} {shape : Bool → List (Bool × Bool)}
    (hstep : ∀ n data s, n < 8 → Sending i (stage n) v n clk data s₀ s →
      Shows i ops (shape (v.getLsbD n)) s (Sending i (stage (n + 1)) v (n + 1) clk (v.getLsbD n) s₀))
    (k m : Nat) (hm : m + k = 8) (h : Sending i (stage m) v m clk data s₀ s) :
    Shows i (List.replicate k ops).flatten ((List.range' m k).flatMap fun n => shape (v.getLsbD n)) s
      (fun t => ∃ data, Sending i (stage 8) v 8 clk data s₀ t) := by
  induction k generalizing m data s with
  | zero => cases hm; exact Shows.nil ⟨_, h⟩
  | succ k ih => exact (hstep m data s (by omega) h).append fun t ht => ih (m + 1) (by omega) ht

end Sending

/-! ## The PS/2 device -/

section Ps2Device

variable {v : Byte} {n : Nat} {data : Bool} {s₀ s : State}

/-- One clocked symbol of a frame: CLOCK high with the symbol on DATA, then the fall. -/
def clocked (b : Bool) : List (Bool × Bool) := [(true, b), (false, b)]

/-- The state in which the PS/2 device has `n` data symbols put and CLOCK low (R149). -/
def p2dNext (n : Nat) : St := if n = 8 then .prepParity else .prepBit

/-- While the device has CLOCK released and nobody holds it low, there is no contention (R143). -/
theorem Sending.p2dUnlessContention {c : St} {body : State → State} (h : Sending .P c v n true data s₀ s)
    (hfar : FarReleased .P s₀) : p2dUnlessContention body s = body s := by
  have hhigh : level .ps2Clk s = true := h.clk_high rfl hfar
  simp [Machine.p2dUnlessContention, hhigh]

/-- A fall of CLOCK. -/
theorem Sending.p2d_fall {c d : St} (h : Sending .P c v n true data s₀ s) (hfar : FarReleased .P s₀) :
    Sending .P d v n false data s₀ (Machine.p2dUnlessContention (p2dFall d) s) := by
  rw [h.p2dUnlessContention hfar]
  exact (h.clock false).tick d .ps2HalfCycleUs

/-- A rise of CLOCK. -/
theorem Sending.p2d_rise {c d : St} {clk : Bool} (h : Sending .P c v n clk data s₀ s) :
    Sending .P d v n true data s₀ (p2dRise d s) :=
  (h.clock true).tick d .ps2HalfCycleUs

section Frame

variable (hrole : s₀.p.role = .device) (hfar : FarReleased .P s₀)
include hrole hfar

/-- A symbol and its fall. -/
theorem Sending.p2d_shows_clocked {prep send : Instr} {f g : State → State} {c d e : St} {m : Nat} {b : Bool}
    (h : Sending .P c v n false data s₀ s) (hprep : ∀ s, exec prep s = transition .P .device c f s)
    (hf : Sending .P d v m true b s₀ (f s)) (hsend : ∀ s, exec send s = transition .P .device d g s)
    (hg : ∀ t, Sending .P d v m true b s₀ t → g t = Machine.p2dUnlessContention (p2dFall e) t) :
    Shows .P [prep, send] (clocked b) s (Sending .P e v m false b s₀) :=
  (h.shows_released hrole hfar hprep hf).append fun t ht =>
    ht.shows_released hrole hfar hsend (hg t ht ▸ ht.p2d_fall hfar)

/-- R146, R147: the start symbol and its fall. -/
theorem Sending.p2d_shows_start (h : Sending .P .prepStart v 0 true false s₀ s) :
    Shows .P [.p2dPrepStartTmr, .p2dSendStartTmr] (clocked false) s (Sending .P .prepBit v 0 false false s₀) := by
  have hprep : Sending .P .sendStart v 0 true false s₀ (p2dPrepStartTmr s) := by
    rw [p2dPrepStartTmr, h.p2dUnlessContention hfar]
    exact h.tick .sendStart .ps2HalfCycleUs
  exact (h.shows_released hrole hfar (fun _ => rfl) hprep).append fun _ ht =>
    ht.shows_released hrole hfar (fun _ => rfl) (ht.p2d_fall hfar)

/-- R148, R149: a data symbol and its fall. -/
theorem Sending.p2d_shows_bit (hn : n < 8) (h : Sending .P (p2dNext n) v n false data s₀ s) :
    Shows .P [.p2dPrepBitTmr, .p2dSendBitTmr] (clocked (v.getLsbD n)) s
      (Sending .P (p2dNext (n + 1)) v (n + 1) false (v.getLsbD n) s₀) := by
  rw [p2dNext, if_neg (by omega)] at h
  refine h.p2d_shows_clocked hrole hfar (fun _ => rfl) (h.putBit hn).p2d_rise (fun _ => rfl) fun t ht => ?_
  have hcount : t.p.bitcnt = 8 ↔ n + 1 = 8 := by rw [← ht.count]; exact BitVec.toNat_inj.symm
  rw [p2dSendBitTmr, p2dNext]
  simp only [hcount]

/-- R150, R151: the parity symbol and its fall. -/
theorem Sending.p2d_shows_parity (h : Sending .P .prepParity v 8 false data s₀ s) :
    Shows .P [.p2dPrepParityTmr, .p2dSendParityTmr] (clocked (oddParity v)) s
      (Sending .P .prepStop v 8 false (oddParity v) s₀) := by
  refine h.p2d_shows_clocked hrole hfar (fun _ => rfl) ?_ (fun _ => rfl) fun _ _ => rfl
  rw [p2dPrepParityTmr, h.parityBit rfl]
  exact (h.symbol (oddParity v)).p2d_rise

/-- R152, R153: the stop symbol, its fall, and the holdoff. -/
theorem Sending.p2d_shows_stop (h : Sending .P .prepStop v 8 false data s₀ s) :
    Shows .P [.p2dPrepStopTmr, .p2dSendStopTmr] (clocked true) s
      (fun t => t.p.st = .holdoff ∧ t.p.hold = s₀.cfg.ps2HoldoffTicks ∧ t.events = s₀.events) := by
  refine (h.shows_released hrole hfar (fun _ => rfl) (h.symbol true).p2d_rise).append fun t ht => ?_
  have hexec : exec .p2dSendStopTmr t = .next (p2dStopFall t) :=
    (transition_enabled t _ (ht.role.trans hrole) ht.st).trans (congrArg _ (ht.p2dUnlessContention hfar))
  have hend : Sending .P .holdoff 0 0 false true s₀ (p2dStopFall t) :=
    ((((ht.clock false).setHold _).setAckSeen _).frameReset).tick .holdoff .ps2HalfCycleUs
  have hhold : (p2dStopFall t).p.hold = t.cfg.ps2HoldoffTicks := rfl
  exact Shows.one hexec (by simp [hend.level_clk]) (hend.level_data hfar.data)
    ⟨hend.st, by rw [hhold, ht.cfg], hend.events⟩

end Frame

/-- Settles O47: `Sending` is carried through the start symbol, the eight data symbols, parity and stop. -/
theorem p2dSendsFrame : Obligations.P2dSendsFrame := by
  intro v s hrole hst hacc hb ho hclk hdata hextc hextd parity sent r
  have hfar : FarReleased .P s := ⟨hextc, hextd⟩
  have hstart : Sending .P .prepStart v 0 true false s s := sending_start hst hacc hb ho hclk hdata
  obtain ⟨t, hrun, hend⟩ := ((hstart.p2d_shows_start hrole hfar).append fun _ ht =>
    Sending.shows_symbols (stage := p2dNext) (fun _ _ _ hn h => h.p2d_shows_bit hrole hfar hn) 8 0 rfl ht).append
      fun _ ⟨_, ht⟩ => (ht.p2d_shows_parity hrole hfar).append fun _ ht => ht.p2d_shows_stop hrole hfar
  have hr : r = _ := hrun
  rw [hr]
  refine ⟨?_, t, rfl, hend⟩
  rw [oddParity_eq]
  rfl

end Ps2Device

/-! ## The XT device -/

section XtDevice

variable {v : Byte} {n : Nat} {data : Bool} {s₀ s : State}
variable (hrole : s₀.x.role = .device) (hfar : FarReleased .X s₀)
include hrole hfar

/-- R196: the fall of a data symbol. -/
theorem Sending.xtd_shows_fall (h : Sending .X .sendBit v n true data s₀ s) :
    Shows .X [.xtdSendBitTmr] [(false, data)] s (Sending .X .prepBit v n false data s₀) := by
  refine h.shows_released hrole hfar (fun _ => rfl) ?_
  have hhigh : level .xtClk s = true := h.clk_high rfl hfar
  rw [xtdSendBitTmr, if_neg (by simp [hhigh])]
  exact (h.clock false).tick .prepBit .xtHalfCycleUs

/-- R195, R196: the first data symbol and its fall. -/
theorem Sending.xtd_shows_first (h : Sending .X .sendStart v 0 true data s₀ s) :
    Shows .X [.xtdSendStartTmr, .xtdSendBitTmr] (clocked (v.getLsbD 0)) s
      (Sending .X .prepBit v 1 false (v.getLsbD 0) s₀) := by
  have hhigh : level .xtClk s = true := h.clk_high rfl hfar
  have hput : Sending .X .sendBit v 1 true (v.getLsbD 0) s₀ (xtdSendStartTmr s) := by
    rw [xtdSendStartTmr, if_neg (by simp [hhigh])]
    exact (h.putBit (by decide)).tick .sendBit .xtHalfCycleUs
  exact (h.shows_released hrole hfar (fun _ => rfl) hput).append fun _ ht => ht.xtd_shows_fall hrole hfar

/-- R197, R196: a further data symbol and its fall. -/
theorem Sending.xtd_shows_bit (hn : n < 8) (h : Sending .X .prepBit v n false data s₀ s) :
    Shows .X [.xtdPrepBitTmr, .xtdSendBitTmr] (clocked (v.getLsbD n)) s
      (Sending .X .prepBit v (n + 1) false (v.getLsbD n) s₀) := by
  have hput : Sending .X .sendBit v (n + 1) true (v.getLsbD n) s₀ (xtdPrepBitTmr s) := by
    have hrise := h.clock true
    have hbody : xtdPrepBitTmr s = xtdTick .sendBit (Machine.putBit .X (releaseLine .xtClk s)) :=
      if_pos (hrise.bitcnt_lt_iff.mpr hn)
    rw [hbody]
    exact (hrise.putBit hn).tick .sendBit .xtHalfCycleUs
  exact (h.shows_released hrole hfar (fun _ => rfl) hput).append fun _ ht => ht.xtd_shows_fall hrole hfar

/-- R197: after the eighth fall both lines are released. -/
theorem Sending.xtd_shows_end (h : Sending .X .prepBit v 8 false data s₀ s) :
    Shows .X [.xtdPrepBitTmr] [(true, true)] s
      (fun t => t.x.st = .holdoff ∧ t.x.hold = s₀.cfg.xtHoldoffTicks) := by
  have hbody : xtdPrepBitTmr s = xtdTick .holdoff (Machine.frameReset .X (Machine.setHold .X (s.cfg.get .xtHoldoffTicks)
      (releaseLine .xtData (releaseLine .xtClk s)))) :=
    if_neg (mt (h.clock true).bitcnt_lt_iff.mp (by decide))
  have hend : Sending .X .holdoff 0 0 true true s₀ (xtdPrepBitTmr s) := by
    rw [hbody]
    exact ((((h.clock true).symbol true).setHold _).frameReset).tick .holdoff .xtHalfCycleUs
  have hhold : (xtdPrepBitTmr s).x.hold = s.cfg.xtHoldoffTicks := by rw [hbody]; rfl
  exact Shows.one (transition_enabled s _ (h.role.trans hrole) h.st) (hend.clk_high rfl hfar)
    (hend.level_data hfar.data) ⟨hend.st, by rw [hhold, h.cfg]⟩

/-- R195 to R197: the whole frame of an XT device. -/
theorem Sending.xtd_shows_frame (h : Sending .X .sendStart v 0 true data s₀ s) :
    Shows .X
      ([Instr.xtdSendStartTmr, .xtdSendBitTmr] ++ (List.replicate 7 [Instr.xtdPrepBitTmr, .xtdSendBitTmr]).flatten
        ++ [Instr.xtdPrepBitTmr])
      (((List.range 8).map v.getLsbD).flatMap clocked ++ [(true, true)]) s
      (fun t => t.x.st = .holdoff ∧ t.x.hold = s₀.cfg.xtHoldoffTicks) :=
  ((h.xtd_shows_first hrole hfar).append fun _ ht =>
    Sending.shows_symbols (stage := fun _ => .prepBit) (fun _ _ _ hn h => h.xtd_shows_bit hrole hfar hn) 7 1 rfl
      ht).append fun _ ⟨_, ht⟩ => ht.xtd_shows_end hrole hfar

end XtDevice

/-! ## The PS/2 host -/

section Ps2Host

variable {v : Byte} {n : Nat} {clk data : Bool} {s₀ s : State}

section Frame

variable (hrole : s₀.p.role = .host) (hfar : s₀.ext.ps2Data = .rel)
include hrole hfar

/-- R122: the first data symbol after fall 1. -/
theorem Sending.p2h_shows_first (h : Sending .P .sendStart v 0 clk data s₀ s) :
    Shows .P [.p2hSendStartEdge] [(clk && s₀.ext.ps2Clk == .rel, v.getLsbD 0)] s
      (Sending .P .sendBit v 1 clk (v.getLsbD 0) s₀) :=
  h.shows hrole (fun _ => rfl) ((h.putBit (by decide)).tick .sendBit .ps2hBitTimeoutUs) hfar

/-- R123: a further data symbol after a fall. -/
theorem Sending.p2h_shows_bit (hn : n < 8) (h : Sending .P .sendBit v n clk data s₀ s) :
    Shows .P [.p2hSendBitEdge] [(clk && s₀.ext.ps2Clk == .rel, v.getLsbD n)] s
      (Sending .P .sendBit v (n + 1) clk (v.getLsbD n) s₀) := by
  refine h.shows hrole (fun _ => rfl) ?_ hfar
  have hbody : p2hSendBitEdge s = p2hArmTimeout (Machine.putBit .P s) := if_pos (h.bitcnt_lt_iff.mpr hn)
  rw [hbody]
  exact (h.putBit hn).armCfg .ps2hBitTimeoutUs

/-- R123: the parity symbol after fall 9. -/
theorem Sending.p2h_shows_parity (h : Sending .P .sendBit v 8 clk data s₀ s) :
    Shows .P [.p2hSendBitEdge] [(clk && s₀.ext.ps2Clk == .rel, oddParity v)] s
      (Sending .P .sendParity v 8 clk (oddParity v) s₀) := by
  refine h.shows hrole (fun _ => rfl) ?_ hfar
  have hbody : p2hSendBitEdge s =
      setSt .P .sendParity (p2hArmTimeout (driveLine .ps2Data (Machine.parityBit .P s) s)) :=
    if_neg (mt h.bitcnt_lt_iff.mp (by decide))
  rw [hbody, h.parityBit rfl]
  exact (h.symbol (oddParity v)).tick .sendParity .ps2hBitTimeoutUs

/-- R124: the stop symbol after fall 10. -/
theorem Sending.p2h_shows_stop (h : Sending .P .sendParity v 8 clk data s₀ s) :
    Shows .P [.p2hSendParityEdge] [(clk && s₀.ext.ps2Clk == .rel, true)] s
      (Sending .P .sendStop v 8 clk true s₀) :=
  h.shows hrole (fun _ => rfl) ((h.symbol true).tick .sendStop .ps2hBitTimeoutUs) hfar

/-- R122 to R124: the bits, the parity and the stop symbol of a host frame. -/
theorem Sending.p2h_shows_frame (h : Sending .P .sendStart v 0 clk data s₀ s) :
    Shows .P ([Instr.p2hSendStartEdge] ++ List.replicate 8 Instr.p2hSendBitEdge ++ [Instr.p2hSendParityEdge])
      (((List.range 8).map v.getLsbD ++ [oddParity v, true]).map fun b => (clk && s₀.ext.ps2Clk == .rel, b)) s
      (Sending .P .sendStop v 8 clk true s₀) :=
  ((h.p2h_shows_first hrole hfar).append fun _ ht =>
    (Sending.shows_symbols (stage := fun _ => .sendBit) (shape := fun b => [(clk && s₀.ext.ps2Clk == .rel, b)])
      (fun _ _ _ hn h => h.p2h_shows_bit hrole hfar hn) 7 1 rfl ht).append fun _ ⟨_, ht⟩ =>
        ht.p2h_shows_parity hrole hfar).append fun _ ht => ht.p2h_shows_stop hrole hfar

end Frame

end Ps2Host

end Sys2Proof.Machine
end

section
/-!
PROOF. Whole frames as the block receives them (spec/30_encoding.md R61, R62, with R155 to R162, R182, R183), and what
the two ends say together. `Receiving` is what holds between two transitions of a frame.
-/

namespace Sys2Proof.Machine

open Sys2Proof

/-! ## Runs that receive symbols -/

/-- The run completes, the far end putting its symbols on the line, and ends in a state with `P`. -/
def Receives (l : Line) (ops : List (Instr × Bool)) (s : State) (P : State → Prop) : Prop :=
  ∃ t, runReceiving l ops s = .next t ∧ P t

section Receives

variable {l : Line} {P Q : State → Prop} {s t : State}

theorem Receives.nil (h : P s) : Receives l [] s P := ⟨s, rfl, h⟩

theorem Receives.one {j : Instr} {b : Bool} (hj : exec j (setExt l (driveOf b) s) = .next t) (h : P t) :
    Receives l [(j, b)] s P :=
  ⟨t, by rw [setExt] at hj; simp only [runReceiving, hj], h⟩

/-- A run goes on from where its first part has ended. -/
theorem runReceiving_append {ops : List (Instr × Bool)} (h : runReceiving l ops s = .next t)
    (ops' : List (Instr × Bool)) : runReceiving l (ops ++ ops') s = runReceiving l ops' t := by
  induction ops generalizing s with
  | nil => cases h; rfl
  | cons j rest ih =>
    simp only [List.cons_append, runReceiving] at h ⊢
    split at h
    · exact ih h
    all_goals cases h

/-- One run after the other. -/
theorem Receives.append {ops ops' : List (Instr × Bool)} (h : Receives l ops s P)
    (h' : ∀ t, P t → Receives l ops' t Q) : Receives l (ops ++ ops') s Q := by
  obtain ⟨t, hrun, hP⟩ := h
  obtain ⟨u, hrun', hQ⟩ := h' t hP
  exact ⟨u, (runReceiving_append hrun ops').trans hrun', hQ⟩

end Receives

/-! ## Between two transitions of a frame -/

/-- The instance stands in the state `c` with `n` symbols of `v` received, its DATA driven as given; everything else
that matters to the frame is as in `s₀`. -/
structure Receiving (i : Inst) (c : St) (v : Byte) (n : Nat) (data : Bool) (s₀ s : State) : Prop where
  role : (s.inst i).role = (s₀.inst i).role
  st : (s.inst i).st = c
  gets : Gets v n (s.inst i)
  data : s.own.get (dataOf i) = driveOf data
  rxq : (s.inst i).rxq = (s₀.inst i).rxq
  slots : s.slots = s₀.slots
  cfg : s.cfg = s₀.cfg
  events : s.events = s₀.events

namespace Receiving

variable {i : Inst} {c : St} {v : Byte} {n : Nat} {data : Bool} {s₀ s : State}

section Operations

variable (h : Receiving i c v n data s₀ s)
include h

/-- The far end is not part of the block. -/
theorem setExt (l : Line) (d : Drive) : Receiving i c v n data s₀ (setExt l d s) := by cases i <;> exact { h with }

/-- The end of a step: the timer is armed and the state register written. -/
theorem tick (d : St) (k : CfgReg) : Receiving i d v n data s₀ (setSt i d (armCfg i k s)) := by
  cases i <;> exact { h with st := rfl }

/-- CLOCK is driven. -/
theorem clock (b : Bool) : Receiving i c v n data s₀ (driveLine (clkOf i) b s) := by
  cases i <;> cases b <;> exact { h with }

/-- DATA is driven. -/
theorem drive (b : Bool) : Receiving i c v n b s₀ (driveLine (dataOf i) b s) := by
  cases i <;> cases b <;> exact { h with data := rfl }

end Operations

/-- `get_bit()` takes the next symbol from DATA (R63). -/
theorem getBit (h : Receiving i c v n data s₀ s) (hn : n < 8) (hd : level (dataOf i) s = v.getLsbD n) :
    Receiving i c v (n + 1) data s₀ (getBit i s) := by
  have hgets := h.gets.getBit hn hd
  cases i <;> exact { h with gets := hgets }

/-- DATA that the block has released shows the far end's symbol (R84). -/
theorem level_setExt (h : Receiving i c v n true s₀ s) (b : Bool) :
    level (dataOf i) (Machine.setExt (dataOf i) (driveOf b) s) = b :=
  level_setExt_driveOf h.data b

/-- The byte is committed to a queue with room (R42). -/
theorem push_acc (h : Receiving i c v 8 data s₀ s) (hroom : (s₀.inst i).rxq.full s₀.slots = false) :
    push i .rx (s.inst i).acc s = s.modInst i fun w => { w with rxq := (s₀.inst i).rxq.put s₀.slots v } := by
  obtain ⟨hacc, -⟩ := h.gets.all
  rw [push_room s i .rx _ (by simpa [h.rxq, h.slots] using hroom)]
  simp [hacc, h.rxq, h.slots]

theorem bitcnt_eq_iff (h : Receiving i c v n data s₀ s) : (s.inst i).bitcnt = 8 ↔ n = 8 := by
  obtain ⟨-, hcount, -⟩ := h.gets
  rw [← hcount, ← BitVec.toNat_inj]
  rfl

/-- One transition of the frame. -/
theorem receives {j : Instr} {b : Bool} {r : Role} {body : State → State} {P : State → Prop}
    (h : Receiving i c v n data s₀ s) (hr : (s₀.inst i).role = r) (hj : ∀ s, exec j s = transition i r c body s)
    (h' : P (body (Machine.setExt (dataOf i) (driveOf b) s))) : Receives (dataOf i) [(j, b)] s P :=
  have hs := h.setExt (dataOf i) (driveOf b)
  Receives.one ((hj _).trans (transition_enabled _ body (hs.role.trans hr) hs.st)) h'

/-- The data symbols from `m` on, one after the other. -/
theorem receives_symbols {ops : Nat → List (Instr × Bool)} {stage : Nat → St} {last : Nat}
    (hstep : ∀ n s, n < last → Receiving i (stage n) v n true s₀ s →
      Receives (dataOf i) (ops n) s (Receiving i (stage (n + 1)) v (n + 1) true s₀))
    (k m : Nat) (hm : m + k = last) (h : Receiving i (stage m) v m true s₀ s) :
    Receives (dataOf i) ((List.range' m k).flatMap ops) s (Receiving i (stage last) v last true s₀) := by
  induction k generalizing m s with
  | zero => cases hm; exact Receives.nil h
  | succ k ih => exact (hstep m s (by omega) h).append fun t ht => ih (m + 1) (by omega) ht

end Receiving

/-! ## The PS/2 device -/

section Ps2Device

variable {v : Byte} {n : Nat} {data : Bool} {s₀ s : State}

/-- The state in which the PS/2 device waits for symbol `n` (R158). -/
def p2dAwaits (n : Nat) : St := if n = 8 then .getParity else .waitBit

/-- A fall of CLOCK. -/
theorem Receiving.p2d_fall {c d : St} (h : Receiving .P c v n data s₀ s) :
    Receiving .P d v n data s₀ (p2dFall d s) :=
  (h.clock false).tick d .ps2HalfCycleUs

/-- A rise of CLOCK. -/
theorem Receiving.p2d_rise {c d : St} (h : Receiving .P c v n data s₀ s) :
    Receiving .P d v n data s₀ (p2dRise d s) :=
  (h.clock true).tick d .ps2HalfCycleUs

/-- R162: the byte is committed and the holdoff begins. -/
theorem Receiving.p2dGetAckTmr_commits (h : Receiving .P .getAck v 8 data s₀ s)
    (hroom : s₀.p.rxq.full s₀.slots = false) :
    (p2dGetAckTmr s).p.rxq = s₀.p.rxq.put s₀.slots v ∧ (p2dGetAckTmr s).p.st = .holdoff ∧
    (p2dGetAckTmr s).p.hold = s₀.cfg.ps2HoldoffTicks ∧ (p2dGetAckTmr s).events = s₀.events := by
  let u := releaseLine .ps2Data (releaseLine .ps2Clk s)
  have hu : Receiving .P .getAck v 8 true s₀ u := (h.clock true).drive true
  have hpush : push .P .rx u.p.acc u = u.modInst .P fun w => { w with rxq := s₀.p.rxq.put s₀.slots v } :=
    hu.push_acc hroom
  simp only [p2dGetAckTmr, hpush, u]
  exact ⟨rfl, rfl, congrArg CfgBank.ps2HoldoffTicks hu.cfg, hu.events⟩

section Frame

variable (hrole : s₀.p.role = .device)
include hrole

/-- R155, R156: the start symbol is not looked at. -/
theorem Receiving.p2d_receives_start (a b : Bool) (h : Receiving .P .waitStart v 0 true s₀ s) :
    Receives .ps2Data [(.p2dWaitStartTmr, a), (.p2dGetStartTmr, b)] s (Receiving .P .waitBit v 0 true s₀) :=
  (h.receives hrole (fun _ => rfl) (h.setExt _ _).p2d_fall).append fun _ ht =>
    ht.receives hrole (fun _ => rfl) (ht.setExt _ _).p2d_rise

/-- R157, R158: a data symbol is sampled before its fall. -/
theorem Receiving.p2d_receives_bit (a : Bool) (hn : n < 8) (h : Receiving .P (p2dAwaits n) v n true s₀ s) :
    Receives .ps2Data [(.p2dWaitBitTmr, v.getLsbD n), (.p2dGetBitTmr, a)] s
      (Receiving .P (p2dAwaits (n + 1)) v (n + 1) true s₀) := by
  rw [p2dAwaits, if_neg (by omega)] at h
  refine (h.receives hrole (fun _ => rfl) ((h.setExt _ _).getBit hn (h.level_setExt _)).p2d_fall).append fun t ht => ?_
  refine ht.receives hrole (fun _ => rfl) ?_
  have hcount : t.p.bitcnt = 8 ↔ n + 1 = 8 := ht.bitcnt_eq_iff
  have hbody (d : Drive) : p2dGetBitTmr (Machine.setExt .ps2Data d t)
      = p2dRise (p2dAwaits (n + 1)) (Machine.setExt .ps2Data d t) := by
    simp only [p2dGetBitTmr, setExt_p, hcount, p2dAwaits]
  exact hbody _ ▸ (ht.setExt _ _).p2d_rise

/-- R159 to R162: parity, stop and the acknowledge; then the byte is committed. -/
theorem Receiving.p2d_receives_end (a b c d : Bool) (hroom : s₀.p.rxq.full s₀.slots = false)
    (h : Receiving .P .getParity v 8 true s₀ s) :
    Receives .ps2Data [(.p2dGetParityTmr, a), (.p2dWaitStopTmr, b), (.p2dWaitAckTmr, c), (.p2dGetAckTmr, d)] s
      (fun t => t.p.rxq = s₀.p.rxq.put s₀.slots v ∧ t.p.st = .holdoff ∧ t.p.hold = s₀.cfg.ps2HoldoffTicks ∧
        t.events = s₀.events) := by
  refine (h.receives hrole (fun _ => rfl) (h.setExt _ _).p2d_fall).append fun _ ht => ?_
  refine (ht.receives hrole (fun _ => rfl)
    (((ht.setExt _ _).clock true).drive false |>.tick .waitAck .ps2HalfCycleUs)).append fun _ ht => ?_
  refine (ht.receives hrole (fun _ => rfl) (ht.setExt _ _).p2d_fall).append fun _ ht => ?_
  exact ht.receives hrole (fun _ => rfl) ((ht.setExt _ _).p2dGetAckTmr_commits hroom)

/-- R155 to R162: the whole frame of a PS/2 device, whatever DATA is at its other ticks. -/
theorem Receiving.p2d_receives_frame (other : Nat → Bool) (hroom : s₀.p.rxq.full s₀.slots = false)
    (h : Receiving .P .waitStart v 0 true s₀ s) :
    Receives .ps2Data
      ([(Instr.p2dWaitStartTmr, other 0), (.p2dGetStartTmr, other 1)]
        ++ (List.range 8).flatMap (fun k => [(Instr.p2dWaitBitTmr, v.getLsbD k), (.p2dGetBitTmr, other (k + 2))])
        ++ [(Instr.p2dGetParityTmr, other 10), (.p2dWaitStopTmr, other 11), (.p2dWaitAckTmr, other 12),
          (.p2dGetAckTmr, other 13)]) s
      (fun t => t.p.rxq = s₀.p.rxq.put s₀.slots v ∧ t.p.st = .holdoff ∧ t.p.hold = s₀.cfg.ps2HoldoffTicks ∧
        t.events = s₀.events) :=
  ((h.p2d_receives_start hrole _ _).append fun _ ht =>
    receives_symbols (stage := p2dAwaits)
      (fun n _ hn h => h.p2d_receives_bit hrole (other (n + 2)) hn) 8 0 rfl ht).append fun _ ht =>
        ht.p2d_receives_end hrole _ _ _ _ hroom

end Frame

end Ps2Device

/-! ## The XT host -/

section XtHost

variable {v : Byte} {n : Nat} {s₀ s : State}

/-- R183: a data symbol that is not the last. -/
theorem Receiving.xthGetBitEdge_more {c : St} (h : Receiving .X c v n true s₀ s)
    (hd : level .xtData s = v.getLsbD n) (hn : n < 7) : Receiving .X .getBit v (n + 1) true s₀ (xthGetBitEdge s) := by
  have hbit := h.getBit (by omega) hd
  have hbody : xthGetBitEdge s = setSt .X .getBit (armCfg .X .xthBitTimeoutUs (Machine.getBit .X s)) :=
    if_neg (mt hbit.bitcnt_eq_iff.mp (by omega))
  rw [hbody]
  exact hbit.tick .getBit .xthBitTimeoutUs

/-- R183: the eighth data symbol commits the byte. -/
theorem Receiving.xthGetBitEdge_commits {c : St} (h : Receiving .X c v 7 true s₀ s)
    (hd : level .xtData s = v.getLsbD 7) (hroom : s₀.x.rxq.full s₀.slots = false) :
    (xthGetBitEdge s).x.rxq = s₀.x.rxq.put s₀.slots v ∧ (xthGetBitEdge s).x.st = .idle ∧
    (xthGetBitEdge s).events = s₀.events := by
  have hbit := h.getBit (by decide) hd
  have hbody : xthGetBitEdge s =
      xthIdle (frameReset .X (push .X .rx (Machine.getBit .X s).x.acc (Machine.getBit .X s))) :=
    if_pos (hbit.bitcnt_eq_iff.mpr rfl)
  have hpush := hbit.push_acc hroom
  rw [inst_X] at hpush
  rw [hbody, hpush, xthIdle, tmrOff_eq]
  exact ⟨rfl, rfl, hbit.events⟩

section Frame

variable (hrole : s₀.x.role = .host)
include hrole

/-- R182, R183: the eight falls of a frame. -/
theorem xth_receives_frame (hst : s₀.x.st = .idle) (hdata : s₀.own.xtData = .rel)
    (hroom : s₀.x.rxq.full s₀.slots = false) :
    Receives .xtData (List.zip (Instr.xthIdleEdge :: List.replicate 7 .xthGetBitEdge) ((List.range 8).map v.getLsbD)) s₀
      (fun t => t.x.rxq = s₀.x.rxq.put s₀.slots v ∧ t.x.st = .idle ∧ t.events = s₀.events) := by
  let s := setExt .xtData (driveOf (v.getLsbD 0)) s₀
  have hstart : Receiving .X .idle v 0 true s₀ (frameStart .X 0 s) :=
    { role := rfl, st := hst, gets := gets_start rfl rfl rfl, data := hdata, rxq := rfl, slots := rfl, cfg := rfl,
      events := rfl }
  have hfirst : Receives .xtData [(.xthIdleEdge, v.getLsbD 0)] s₀ (Receiving .X .getBit v 1 true s₀) :=
    Receives.one (transition_enabled s xthIdleEdge hrole hst)
      (hstart.xthGetBitEdge_more (level_setExt_driveOf (l := .xtData) hdata _) (by decide))
  have hnext (n : Nat) (t : State) (hn : n < 7) (ht : Receiving .X .getBit v n true s₀ t) :
      Receives .xtData [(.xthGetBitEdge, v.getLsbD n)] t (Receiving .X .getBit v (n + 1) true s₀) :=
    ht.receives hrole (fun _ => rfl) ((ht.setExt _ _).xthGetBitEdge_more (ht.level_setExt _) hn)
  exact (hfirst.append fun _ ht =>
    Receiving.receives_symbols (stage := fun _ => .getBit) hnext 6 1 rfl ht).append fun _ ht =>
      ht.receives hrole (fun _ => rfl) ((ht.setExt _ _).xthGetBitEdge_commits (ht.level_setExt _) hroom)

end Frame

end XtHost

/-! ## Both ends -/

theorem exists_driveOf (d : Drive) : ∃ b, d = driveOf b := by
  cases d
  · exact ⟨true, rfl⟩
  · exact ⟨false, rfl⟩

/-- Settles O48: the host's symbols come from `Sending`, the device's byte from `Receiving`. -/
theorem ps2HostToDeviceFrame : Obligations.Ps2HostToDeviceFrame := by
  intro v other s parity
  refine ⟨?_, ?_⟩
  · intro hrole hst hacc hb ho hfar r
    obtain ⟨clk, hclk⟩ := exists_driveOf s.own.ps2Clk
    obtain ⟨data, hdata⟩ := exists_driveOf s.own.ps2Data
    have hstart : Sending .P .sendStart v 0 clk data s s := sending_start hst hacc hb ho hclk hdata
    obtain ⟨t, hrun, ht⟩ := hstart.p2h_shows_frame hrole hfar
    have hr : r = _ := hrun
    rw [hr]
    refine ⟨?_, t, rfl, ht.st, ht.events⟩
    rw [oddParity_eq]
    rfl
  · intro hrole hst hacc hb ho hdata hroom
    have hstart : Receiving .P .waitStart v 0 true s s :=
      { role := rfl, st := hst, gets := gets_start hacc hb ho, data := hdata, rxq := rfl, slots := rfl, cfg := rfl,
        events := rfl }
    exact hstart.p2d_receives_frame hrole other hroom

/-- Settles O49: the device's symbols come from `Sending`, the host's byte from `Receiving`. -/
theorem xtFrameRoundTrip : Obligations.XtFrameRoundTrip := by
  intro v s bits
  refine ⟨?_, fun hrole hst hdata hroom => xth_receives_frame hrole hst hdata hroom⟩
  intro hrole hst hacc hb ho hclk hfarc hfard r
  obtain ⟨data, hdata⟩ := exists_driveOf s.own.xtData
  have hstart : Sending .X .sendStart v 0 true data s s := sending_start hst hacc hb ho hclk hdata
  obtain ⟨t, hrun, ht⟩ := hstart.xtd_shows_frame hrole ⟨hfarc, hfard⟩
  have hr : r = _ := hrun
  rw [hr]
  exact ⟨rfl, t, rfl, ht⟩

end Sys2Proof.Machine
end

section
/-!
PROOF. The line controller's commands answer what spec/40_line_io.md R87 to R89 say: for a line no engine owns, for a
line an engine owns, and for an id that names no line.
-/

namespace Sys2Proof.Machine

open Sys2Proof

variable {b : Byte} {l : Line} {i : Inst} {s : State} {act : Line → State → State}

/-- No engine owns the line (R85). -/
theorem lineOwned_eq_false_iff : lineOwned l s = false ↔ ∀ i, instOfLine l = some i → (s.inst i).role = .none := by
  refine ⟨fun h i hi => role_none_of_not_lineOwned h hi, fun h => ?_⟩
  unfold lineOwned
  cases hi : instOfLine l with
  | none => rfl
  | some i => simp [h i hi]

theorem lineOwned_of_role (hi : instOfLine l = some i) (hr : (s.inst i).role ≠ .none) : lineOwned l s = true := by
  simp [lineOwned, hi, hr]

theorem lineOfId_eq_none {n : Nat} (h : 6 < n) : lineOfId n = none := by
  obtain ⟨k, rfl⟩ := Nat.exists_eq_add_of_le' h
  rfl

/-- `read(L)` as a byte (R84, R89). -/
theorem byteOfBit_level (l : Line) (s : State) :
    byteOfBit (level l s) = if s.own.get l = .rel ∧ s.ext.get l = .rel then 0x01 else 0x00 := by
  simp [byteOfBit, level]

/-! ## What each command does -/

theorem lineCommand_unowned (hl : lineOfId b.toNat = some l) (ho : lineOwned l s = false) :
    lineCommand b act s = answer 0 (act l s) := by
  simp [lineCommand, hl, ho]

theorem lineCommand_owned (hl : lineOfId b.toNat = some l) (ho : lineOwned l s = true) :
    lineCommand b act s = refuse s := by
  simp [lineCommand, hl, ho]

theorem lineCommand_noLine (hl : lineOfId b.toNat = none) : lineCommand b act s = refuse s := by
  simp [lineCommand, hl]

theorem lineReadCommand_line (hl : lineOfId b.toNat = some l) :
    lineReadCommand b s = answer (byteOfBit (level l s)) s := by
  simp [lineReadCommand, hl]

theorem lineReadCommand_noLine (hl : lineOfId b.toNat = none) : lineReadCommand b s = refuse s := by
  simp [lineReadCommand, hl]

/-! ## The commands as steps -/

section Steps

variable (hd : deliverable s = none)
include hd

/-- A refusal moves no line, so R99 adds nothing to it. -/
theorem asStep_refuse {body : State → State} (hb : body s = refuse s) : asStep body s = .next (refuse s) :=
  asStep_quiet s body hd hb fun _ => rfl

/-- R87, R88 on a line no engine owns: the act, the answer, and R99. -/
theorem asStep_lineCommand_unowned (hl : lineOfId b.toNat = some l) (ho : lineOwned l s = false) :
    asStep (lineCommand b act) s = .next (detectEdges s (answer 0 (act l s))) := by
  rw [asStep_enabled s _ hd, lineCommand_unowned hl ho]

end Steps

/-- Settles O11: an id names a line or it does not (R87), and a line is owned or it is not (R85). -/
theorem lineCommands : Obligations.LineCommands := by
  intro b s hd
  refine ⟨fun l hl => ⟨fun hfree => ?_, fun i hi hr => ?_, ?_⟩, fun hb => ?_⟩
  · have ho : lineOwned l s = false := lineOwned_eq_false_iff.mpr hfree
    exact ⟨asStep_lineCommand_unowned hd hl ho, asStep_lineCommand_unowned hd hl ho⟩
  · have ho : lineOwned l s = true := lineOwned_of_role hi hr
    exact ⟨asStep_refuse hd (lineCommand_owned hl ho), asStep_refuse hd (lineCommand_owned hl ho)⟩
  · rw [← byteOfBit_level]
    exact asStep_quiet s _ hd (lineReadCommand_line hl) fun _ => rfl
  · have hl : lineOfId b.toNat = none := lineOfId_eq_none hb
    exact ⟨asStep_refuse hd (lineCommand_noLine hl), asStep_refuse hd (lineCommand_noLine hl),
      asStep_refuse hd (lineReadCommand_noLine hl)⟩

end Sys2Proof.Machine
end

section
/-!
PROOF. The shared timer (spec/41_timer_edge.md R91 to R94, R101 to R103): what one tick does, the countdown to the
expiry by induction on the ticks, and what the three timer commands answer.
-/

namespace Sys2Proof.Machine

open Sys2Proof

variable {s : State} {c : Owner} {d : Byte}

/-! ## The countdown -/

@[simp] theorem tick_tmr (s : State) : (tick s).tmr = tickTimer s.tmr := by rw [tick_eq]
@[simp] theorem tick_now (s : State) : (tick s).now = s.now + 1 := by rw [tick_eq]

/-- R93, with the count that has run out written as 0. -/
theorem tickTimer_eq (τ : Timer) : tickTimer τ =
    if τ.run then
      if τ.cnt - 1 = 0 then { τ with run := false, cnt := 0, pend := true } else { τ with cnt := τ.cnt - 1 }
    else τ := by
  unfold tickTimer
  split
  · split
    case isTrue h => rw [h]
    case isFalse => rfl
  · rfl

/-- The timer right after `arm(d)` by the agent `c` (R91). -/
def Timer.armed (c : Owner) (d : Byte) : Timer := { run := true, cnt := d, pend := false, owner := c }

/-- A countdown that has run out, its expiry pending (R93). -/
def Timer.expired (c : Owner) : Timer := { run := false, cnt := 0, pend := true, owner := c }

theorem arm_tmr_eq_armed : (arm c d s).tmr = Timer.armed c d := rfl

theorem tickTimer_armed (h : d ≠ 1) : tickTimer (Timer.armed c d) = Timer.armed c (d - 1) := by
  have hne : d - 1 ≠ 0 := by bv_omega
  exact (if_pos rfl).trans (if_neg hne)

theorem tickTimer_armed_one : tickTimer (Timer.armed c 1) = Timer.expired c := by
  simp [tickTimer_eq, Timer.armed, Timer.expired]

/-- While the delay lasts, every tick takes 1 from the count. -/
theorem tickTimer_iterate_armed {k : Nat} (h : k < d.toNat) :
    tickTimer^[k] (Timer.armed c d) = Timer.armed c (d - BitVec.ofNat 8 k) := by
  induction k with
  | zero => simp
  | succ k ih =>
    have hne : d - BitVec.ofNat 8 k ≠ 1 := by bv_omega
    have hsub : d - BitVec.ofNat 8 k - 1 = d - BitVec.ofNat 8 (k + 1) := by bv_omega
    rw [Function.iterate_succ_apply', ih (by omega), tickTimer_armed hne, hsub]

/-- The tick of number `d` finds the count at 1. -/
theorem tickTimer_iterate_expired (h : d ≠ 0) : tickTimer^[d.toNat] (Timer.armed c d) = Timer.expired c := by
  obtain ⟨k, hk⟩ : ∃ k, d.toNat = k + 1 := ⟨d.toNat - 1, by bv_omega⟩
  have hlast : d - BitVec.ofNat 8 k = 1 := by bv_omega
  rw [hk, Function.iterate_succ_apply', tickTimer_iterate_armed (by omega), hlast, tickTimer_armed_one]

theorem tick_iterate_tmr (k : Nat) (s : State) : (tick^[k] s).tmr = tickTimer^[k] s.tmr :=
  Function.Semiconj.iterate_right (f := State.tmr) tick_tmr k s

theorem tick_iterate_now (k : Nat) (s : State) : (tick^[k] s).now = s.now + k := by
  induction k with
  | zero => rfl
  | succ k ih => rw [Function.iterate_succ_apply', tick_now, ih, Nat.add_assoc]

/-- Settles O15: the ticks act on the timer alone, which counts `d` down to 1 and then expires. -/
theorem expiryAtTheDelay : Obligations.ExpiryAtTheDelay := by
  intro c d s k hd
  rw [tick_iterate_tmr, tick_iterate_now, arm_tmr_eq_armed]
  exact ⟨tickTimer_iterate_armed, fun hk => hk ▸ tickTimer_iterate_expired hd, rfl⟩

/-- Settles O14: `tick` in one equation, and a tick moves no line. -/
theorem tickCountsDown : Obligations.TickCountsDown := by
  intro s hd
  refine asStep_quiet s tick hd ?_ fun _ => rfl
  rw [tick_eq, tickTimer_eq]

/-! ## The commands -/

theorem timerOwnedByEngine_iff : timerOwnedByEngine s = true ↔ s.tmr.owner = .P ∨ s.tmr.owner = .X := by
  cases h : s.tmr.owner <;> simp [timerOwnedByEngine, ownerInst, h]

theorem tmrArmCommand_refused (h : d = 0 ∨ timerOwnedByEngine s = true) : tmrArmCommand d s = refuse s := by
  rcases h with rfl | h
  · rfl
  · simp [tmrArmCommand, h]

theorem tmrArmCommand_free (hd : d ≠ 0) (h : timerOwnedByEngine s = false) :
    tmrArmCommand d s = answer 0 (arm .FG d s) := by
  rw [tmrArmCommand, if_neg hd, h]
  rfl

theorem tmrDisableCommand_owned (h : timerOwnedByEngine s = true) : tmrDisableCommand s = refuse s := by
  simp [tmrDisableCommand, h]

theorem tmrDisableCommand_free (h : timerOwnedByEngine s = false) :
    tmrDisableCommand s = answer 0 (stopTimer s) := by
  simp [tmrDisableCommand, h]

/-- The word of `TMR.STATUS` as a sum of its fields (R103). -/
theorem timerStatus_eq (t : Timer) :
    timerStatus t = 4 * t.owner.code.setWidth 8 + (if t.pend then 2 else 0) + (if t.run then 1 else 0) := by
  unfold timerStatus
  generalize t.owner.code = o
  generalize t.pend = p
  generalize t.run = r
  decide +revert

/-- Settles O12: an engine owns the timer or none does (R101, R102), and no command of the timer moves a line. -/
theorem timerCommands : Obligations.TimerCommands := by
  intro d s hd
  dsimp only
  rw [← timerOwnedByEngine_iff, Bool.not_eq_true, ← timerStatus_eq]
  exact ⟨fun h => asStep_refuse hd (tmrArmCommand_refused h),
    fun hne h => asStep_quiet s _ hd (tmrArmCommand_free hne h) fun _ => rfl,
    fun h => asStep_refuse hd (tmrDisableCommand_owned h),
    fun h => asStep_quiet s _ hd (tmrDisableCommand_free h) fun _ => rfl,
    asStep_quiet s _ hd rfl fun _ => rfl⟩

end Sys2Proof.Machine
end

section
/-!
PROOF. The clock-edge detectors (spec/41_timer_edge.md R97 to R100, R104 to R107): R99 as one equation of the state,
what the detector commands answer, and which edge a change of the far end's drive shows.
-/

namespace Sys2Proof.Machine

open Sys2Proof

variable {s : State} {i : Inst} {m : BitVec 2} {l n : Line} {mode : EdgeMode}

/-! ## The last effect of a step -/

/-- R99 writes `edge_pend` of both instances and no other register. -/
theorem detectEdges_eq (before s : State) : detectEdges before s = { s with
    p := { s.p with edgePend := s.p.edgePend || edgeSeen s.p.edgeMode (level .ps2Clk before) (level .ps2Clk s) },
    x := { s.x with edgePend := s.x.edgePend || edgeSeen s.x.edgeMode (level .xtClk before) (level .xtClk s) } } := by
  unfold detectEdges
  rw [detectEdge_eq, detectEdge_eq, level_modInst]
  rfl

/-- A seen edge is a fall in mode FALL or a rise in mode RISE (R97, R99). -/
theorem edgeSeen_eq (m : EdgeMode) (a b : Bool) :
    edgeSeen m a b = (a && !b && m == .fall || !a && b && m == .rise) := by
  cases m <;> simp [edgeSeen]

/-- Settles O10: R99 in one equation, the seen edge written out. -/
theorem edgeDetection : Obligations.EdgeDetection := by
  intro before s
  dsimp only
  rw [detectEdges_eq, edgeSeen_eq, edgeSeen_eq]
  rfl

/-! ## The commands -/

@[simp] theorem modeOfOperand_code (n : EdgeMode) : modeOfOperand n.code = some n := by cases n <;> rfl

theorem edgeSetCommand_reserved (i : Inst) (s : State) : edgeSetCommand i 3 s = refuse s := rfl

theorem edgeSetCommand_owned (h : (s.inst i).role ≠ .none) : edgeSetCommand i m s = refuse s := by
  unfold edgeSetCommand
  split
  · exact if_neg h
  · rfl

theorem edgeSetCommand_free (h : (s.inst i).role = .none) :
    edgeSetCommand i mode.code s = answer 0 (setEdge i mode s) := by
  simp [edgeSetCommand, h]

/-- The word of `EDGE.STATUS` as a sum of its fields (R105). -/
theorem edgeStatus_eq (v : InstState) :
    edgeStatus v = 2 * v.edgeMode.code.setWidth 8 + (if v.edgePend then 1 else 0) := by
  unfold edgeStatus
  generalize v.edgeMode.code = m
  generalize v.edgePend = p
  decide +revert

/-- Settles O13: the mode is reserved, or the instance has a role, or the detector is the foreground's (R104); neither
command moves a line. -/
theorem edgeCommands : Obligations.EdgeCommands := by
  intro i m s hd
  refine ⟨?_, ?_, ?_⟩
  · rintro (rfl | h)
    · exact asStep_refuse hd (edgeSetCommand_reserved i s)
    · exact asStep_refuse hd (edgeSetCommand_owned h)
  · rintro n rfl h
    exact asStep_quiet s _ hd (edgeSetCommand_free h) fun _ => level_modInst s _ i _
  · rw [← edgeStatus_eq]
    exact asStep_quiet s _ hd rfl fun _ => rfl

/-! ## The far end's changes -/

theorem level_setExt_low (l : Line) (s : State) : level l (setExt l .low s) = false := by simp [level]

theorem level_setExt_rel (l : Line) (s : State) : level l (setExt l .rel s) = (s.own.get l == .rel) := by simp [level]

/-- Driving `n` low shows a detector on `l` an edge only as the fall of `l` itself, high until now (R106). -/
theorem edgeSeen_setExt_low (mode : EdgeMode) (l n : Line) (s : State) :
    edgeSeen mode (level l s) (level l (setExt n .low s)) = decide (n = l ∧ mode = .fall ∧ level l s = true) := by
  by_cases h : n = l
  · subst h
    rw [level_setExt_low]
    cases mode <;> simp [edgeSeen]
  · rw [level_setExt_other s .low (Ne.symm h), edgeSeen_same]
    simp [h]

/-- Releasing `n` shows a detector on `l` an edge only as the rise of `l` itself, which the far end alone held low
(R107). -/
theorem edgeSeen_setExt_rel (mode : EdgeMode) (l n : Line) (s : State) :
    edgeSeen mode (level l s) (level l (setExt n .rel s))
      = decide (n = l ∧ mode = .rise ∧ s.own.get l = .rel ∧ s.ext.get l = .low) := by
  by_cases h : n = l
  · subst h
    rw [level_setExt_rel]
    cases hext : s.ext.get n with
    | rel => simp [level, hext]
    | low =>
      have hlow : level n s = false := by simp [level, hext]
      cases mode <;> simp [edgeSeen, hlow, beq_eq_decide]
  · rw [level_setExt_other s .rel (Ne.symm h), edgeSeen_same]
    simp [h]

/-- A far-end change of a line is `ext` written, then R99. -/
theorem farEnd_enabled {k : BitVec 4} (hd : deliverable s = none) (hn : lineOfId k.toNat = some n) (d : Drive) :
    farEnd k d s = .next (detectEdges s (setExt n d s)) := by
  rw [farEnd_of_lineOfId hn, asStep_enabled s _ hd]

/-- Settles O16: R99 after the far end's write, with the edge each write can show. -/
theorem farEndDrivesLines : Obligations.FarEndDrivesLines := by
  intro k n s hd hn
  refine ⟨(farEnd_enabled hd hn .low).trans ?_, (farEnd_enabled hd hn .rel).trans ?_⟩
  · rw [detectEdges_eq, edgeSeen_setExt_low, edgeSeen_setExt_low]
    rfl
  · rw [detectEdges_eq, edgeSeen_setExt_rel, edgeSeen_setExt_rel]
    rfl

end Sys2Proof.Machine
end

section
/-!
PROOF. The PS/2 host's rules as equations of the state (spec/42_ps2_host.md R111 to R128, R131): each rule's operations
together are one change of the state.
-/

namespace Sys2Proof.Machine

open Sys2Proof

variable {s : State}

/-- A transition in its role and state goes where its rule's body goes (R12). -/
theorem exec_transition {j : Instr} {i : Inst} {r : Role} {c : St} {body : State → State} {t : State}
    (hj : ∀ s, exec j s = transition i r c body s) (hr : (s.inst i).role = r) (hc : (s.inst i).st = c)
    (hb : body s = t) : exec j s = .next t := by
  rw [hj, transition_enabled s body hr hc, hb]

/-! ## The idle entry -/

theorem p2hCheckForData_empty (h : s.p.txq.empty = true) :
    p2hCheckForData s = setSt .P .idle (setEdge .P .fall (tmrOff .P s)) :=
  if_pos h

theorem p2hCheckForData_queued (h : s.p.txq.empty = false) : p2hCheckForData s = p2hStartSend s :=
  if_neg (by simp [h])

/-- Settles O28: `txq` is empty (R111) or holds a byte to send (R112). -/
theorem p2hIdleEntry : Obligations.P2hIdleEntry := by
  intro s
  refine ⟨fun h => ?_, fun h => ?_⟩
  · rw [p2hCheckForData_empty h, tmrOff_eq]
    rfl
  · rw [p2hCheckForData_queued h]
    rfl

/-! ## A frame that is received -/

/-- R114 in one equation; the eighth data symbol moves on. -/
theorem p2hGetBitEdge_eq (s : State) : p2hGetBitEdge s = { s with
    p := { s.p with
      acc := (s.p.acc >>> 1) ||| (if level .ps2Data s then 0x80 else 0),
      ones := s.p.ones + (if level .ps2Data s then 1 else 0),
      bitcnt := s.p.bitcnt + 1,
      st := if s.p.bitcnt + 1 = 8 then .getParity else s.p.st },
    tmr := Timer.armed .P s.cfg.ps2hBitTimeoutUs } := by
  unfold p2hGetBitEdge
  rw [getBit_eq]
  by_cases h8 : s.p.bitcnt + 1 = 8
  · rw [if_pos h8]
    exact if_pos h8
  · rw [if_neg h8]
    exact if_neg h8

/-- Settles O29: falls 1 and 10 read nothing (R113, R115); R114 has its own equation. -/
theorem p2hReceiveFalls : Obligations.P2hReceiveFalls := by
  intro s hrole armed
  refine ⟨fun hst => ?_, fun hst => ?_, fun hst => ?_⟩
  · exact exec_transition (fun _ => rfl) hrole hst rfl
  · refine exec_transition (fun _ => rfl) hrole hst ?_
    rw [p2hGetBitEdge_eq, hst]
    rfl
  · exact exec_transition (fun _ => rfl) hrole hst rfl

/-- `push` (R42, R44) to `rxq` of the host as one change of the state. -/
theorem push_P_rx_eq (v : Byte) (s : State) : push .P .rx v s = { s with
    p := { s.p with rxq := if s.p.rxq.full s.slots then s.p.rxq else s.p.rxq.put s.slots v },
    events := if s.p.rxq.full s.slots then s.events ++ [.overflow .P .rx] else s.events } := by
  cases hfull : s.p.rxq.full s.slots
  · rw [push_room s .P .rx v hfull]
    rfl
  · rw [push_full s .P .rx v hfull]
    rfl

/-- Settles O30: after `push` the acknowledge begins in the same way whether there was room or not (R116). -/
theorem p2hStopFallCommits : Obligations.P2hStopFallCommits := by
  intro s hrole hst
  refine exec_transition (fun _ => rfl) hrole hst ?_
  rw [p2hWaitStopEdge, push_P_rx_eq]
  rfl

/-! ## The ends of a frame -/

/-- R125: the acknowledge is read before the frame registers are cleared. -/
theorem p2hSendStopEdge_eq (s : State) : p2hSendStopEdge s = p2hCheckForData { s with
    p := { s.p with acc := 0, bitcnt := 0, ones := 0 },
    events := if level .ps2Data s then s.events ++ [.noAck] else s.events } := by
  cases hack : level .ps2Data s <;> simp only [p2hSendStopEdge, hack] <;> rfl

/-- Settles O31: both rules end with the idle entry (R117, R125). -/
theorem p2hFrameEnds : Obligations.P2hFrameEnds := by
  intro s hrole
  refine ⟨fun hst => ?_, fun hst => ?_⟩
  · exact exec_transition (fun _ => rfl) hrole hst rfl
  · exact exec_transition (fun _ => rfl) hrole hst (p2hSendStopEdge_eq s)

/-- The six waits of the PS/2 host that can time out have one rule (R118 to R120, R126 to R128, R131). -/
theorem exec_p2hTimeout {j : Instr} {c : St} (h : (j, c) ∈ [(Instr.p2hGetBitTmr, St.getBit),
      (.p2hGetParityTmr, .getParity), (.p2hWaitStopTmr, .waitStop), (.p2hSendBitTmr, .sendBit),
      (.p2hSendParityTmr, .sendParity), (.p2hSendStopTmr, .sendStop)]) (s : State) :
    exec j s = transition .P .host c p2hTimeout s := by
  fin_cases h <;> rfl

/-- Settles O32: the one rule of the six timeouts, with `st` the state that timed out (R131). -/
theorem p2hTimeouts : Obligations.P2hTimeouts := by
  rintro j c hj s hrole rfl
  exact exec_transition (exec_p2hTimeout hj) hrole rfl rfl

/-! ## A frame that is sent -/

/-- Settles O33: R121 has no branch. -/
theorem p2hRequestToSend : Obligations.P2hRequestToSend := by
  intro s hrole hst
  exact exec_transition (fun _ => rfl) hrole hst rfl

/-- R123 while data symbols are left. -/
theorem p2hSendBitEdge_more (h : s.p.bitcnt < 8) : p2hSendBitEdge s = p2hArmTimeout (putBit .P s) := if_pos h

/-- R123 after the eighth data symbol. -/
theorem p2hSendBitEdge_parity (h : ¬s.p.bitcnt < 8) :
    p2hSendBitEdge s = setSt .P .sendParity (p2hArmTimeout (driveLine .ps2Data (parityBit .P s) s)) :=
  if_neg h

/-- Settles O34: `put_bit()` at falls 1 to 8, the parity symbol at fall 9, DATA released at fall 10 (R122 to R124). -/
theorem p2hPutsSymbols : Obligations.P2hPutsSymbols := by
  intro s hrole armed bit data put
  refine ⟨fun hst => ?_, fun hst hlt => ?_, fun hst hle => ?_, fun hst => ?_⟩
  · refine exec_transition (fun _ => rfl) hrole hst ?_
    rw [p2hSendStartEdge, putBit_eq]
    rfl
  · refine exec_transition (fun _ => rfl) hrole hst ?_
    rw [p2hSendBitEdge_more hlt, putBit_eq]
    have hput : put = { put with st := s.p.st } := by rw [hst]
    rw [hput]
    rfl
  · refine exec_transition (fun _ => rfl) hrole hst ?_
    rw [p2hSendBitEdge_parity (BitVec.not_lt.mpr hle), driveLine_eq]
    rfl
  · exact exec_transition (fun _ => rfl) hrole hst rfl

end Sys2Proof.Machine
end

section
/-!
PROOF. A whole frame as the PS/2 host receives it (spec/30_encoding.md R60, 42_ps2_host.md R113 to R116, R133).
-/

namespace Sys2Proof.Machine

open Sys2Proof

variable {v : Byte} {n : Nat} {s₀ s : State}

/-- The state in which the PS/2 host waits for symbol `n` (R114). -/
def p2hAwaits (n : Nat) : St := if n = 8 then .getParity else .getBit

/-- R114: a data symbol is sampled at its fall. -/
theorem Receiving.p2hGetBitEdge_takes (h : Receiving .P .getBit v n true s₀ s) (hd : level .ps2Data s = v.getLsbD n)
    (hn : n < 8) : Receiving .P (p2hAwaits (n + 1)) v (n + 1) true s₀ (p2hGetBitEdge s) := by
  have hbit := h.getBit hn hd
  have harmed : Receiving .P .getBit v (n + 1) true s₀ (p2hArmTimeout (Machine.getBit .P s)) := { hbit with }
  unfold p2hGetBitEdge p2hAwaits
  by_cases h8 : n + 1 = 8
  · rw [if_pos h8]
    exact if_pos (harmed.bitcnt_eq_iff.mpr h8) ▸ hbit.tick .getParity .ps2hBitTimeoutUs
  · rw [if_neg h8]
    exact if_neg (mt harmed.bitcnt_eq_iff.mp h8) ▸ harmed

/-- R116: the byte is committed and the acknowledge begins. -/
theorem Receiving.p2hWaitStopEdge_commits (h : Receiving .P .waitStop v 8 true s₀ s)
    (hroom : s₀.p.rxq.full s₀.slots = false) :
    (p2hWaitStopEdge s).p.rxq = s₀.p.rxq.put s₀.slots v ∧ (p2hWaitStopEdge s).p.st = .getAck ∧
    (p2hWaitStopEdge s).own.ps2Data = .low ∧ (p2hWaitStopEdge s).events = s₀.events := by
  have hpush : push .P .rx s.p.acc s = s.modInst .P fun w => { w with rxq := s₀.p.rxq.put s₀.slots v } :=
    h.push_acc hroom
  rw [p2hWaitStopEdge, hpush]
  exact ⟨rfl, rfl, rfl, h.events⟩

section Frame

variable (hrole : s₀.p.role = .host)
include hrole

/-- R113: the start symbol is not looked at. -/
theorem p2h_receives_start (start : Bool) (hst : s₀.p.st = .idle) (hdata : s₀.own.ps2Data = .rel) :
    Receives .ps2Data [(.p2hIdleEdge, start)] s₀ (Receiving .P (p2hAwaits 0) v 0 true s₀) :=
  Receives.one (transition_enabled (setExt .ps2Data (driveOf start) s₀) p2hIdleEdge hrole hst)
    { role := rfl, st := rfl, gets := gets_start rfl rfl rfl, data := hdata, rxq := rfl, slots := rfl, cfg := rfl,
      events := rfl }

/-- R114: a fall of a data symbol. -/
theorem Receiving.p2h_receives_bit (hn : n < 8) (h : Receiving .P (p2hAwaits n) v n true s₀ s) :
    Receives .ps2Data [(.p2hGetBitEdge, v.getLsbD n)] s (Receiving .P (p2hAwaits (n + 1)) v (n + 1) true s₀) := by
  rw [p2hAwaits, if_neg (by omega)] at h
  exact h.receives hrole (fun _ => rfl) ((h.setExt _ _).p2hGetBitEdge_takes (h.level_setExt _) hn)

/-- R115, R116: parity and stop symbol are not looked at; then the byte is committed. -/
theorem Receiving.p2h_receives_end (parity stop : Bool) (hroom : s₀.p.rxq.full s₀.slots = false)
    (h : Receiving .P .getParity v 8 true s₀ s) :
    Receives .ps2Data [(.p2hGetParityEdge, parity), (.p2hWaitStopEdge, stop)] s
      (fun t => t.p.rxq = s₀.p.rxq.put s₀.slots v ∧ t.p.st = .getAck ∧ t.own.ps2Data = .low ∧
        t.events = s₀.events) :=
  (h.receives hrole (fun _ => rfl) ((h.setExt _ _).tick .waitStop .ps2hBitTimeoutUs)).append fun _ ht =>
    ht.receives hrole (fun _ => rfl) ((ht.setExt _ _).p2hWaitStopEdge_commits hroom)

/-- R113 to R116: the whole frame, whatever its start, parity and stop symbols are. -/
theorem p2h_receives_frame (start parity stop : Bool) (hst : s₀.p.st = .idle) (hdata : s₀.own.ps2Data = .rel)
    (hroom : s₀.p.rxq.full s₀.slots = false) :
    Receives .ps2Data
      ([(.p2hIdleEdge, start)] ++ (List.range 8).flatMap (fun n => [(.p2hGetBitEdge, v.getLsbD n)])
        ++ [(.p2hGetParityEdge, parity), (.p2hWaitStopEdge, stop)]) s₀
      (fun t => t.p.rxq = s₀.p.rxq.put s₀.slots v ∧ t.p.st = .getAck ∧ t.own.ps2Data = .low ∧
        t.events = s₀.events) :=
  ((p2h_receives_start hrole start hst hdata).append fun _ ht =>
    Receiving.receives_symbols (stage := p2hAwaits) (fun _ _ hn h => h.p2h_receives_bit hrole hn) 8 0 rfl
      ht).append fun _ ht => ht.p2h_receives_end hrole parity stop hroom

end Frame

/-- Settles O46: `Receiving` is carried through the start symbol, the eight data symbols, parity and stop. -/
theorem p2hReceivesFrame : Obligations.P2hReceivesFrame := by
  intro v start parity stop s hrole hst hdata hroom
  exact p2h_receives_frame hrole start parity stop hst hdata hroom

end Sys2Proof.Machine
end

section
/-!
PROOF. The PS/2 device's rules as equations of the state (spec/43_ps2_device.md R141 to R162, R166): the bus check and
its four ways out, the send ticks with and without contention, the ticks of a received frame, and the holdoff.
-/

namespace Sys2Proof.Machine

open Sys2Proof

variable {s : State}

/-! ## The bus check -/

/-- R141: CLOCK low is the host's inhibit, whatever DATA and `txq` are. -/
theorem p2dCheckBus_inhibited (hclk : level .ps2Clk s = false) :
    p2dCheckBus s = setSt .P .hostInhibit (setEdge .P .rise (tmrOff .P s)) :=
  if_pos hclk

/-- R141 with CLOCK high: DATA low is the host's request, then comes the queue. -/
theorem p2dCheckBus_released (hclk : level .ps2Clk s = true) :
    p2dCheckBus s =
      if level .ps2Data s = false then p2dStartReceive s
      else if s.p.txq.empty = false then p2dStartSend s
      else setSt .P .idle (setEdge .P .fall (tmrOff .P s)) :=
  if_neg (by simp [hclk])

theorem p2dCheckBus_request (hclk : level .ps2Clk s = true) (hdata : level .ps2Data s = false) :
    p2dCheckBus s = p2dStartReceive s := by
  rw [p2dCheckBus_released hclk, if_pos hdata]

theorem p2dCheckBus_queued (hclk : level .ps2Clk s = true) (hdata : level .ps2Data s = true)
    (hq : s.p.txq.empty = false) : p2dCheckBus s = p2dStartSend s := by
  rw [p2dCheckBus_released hclk, if_neg (by simp [hdata]), if_pos hq]

theorem p2dCheckBus_idle (hclk : level .ps2Clk s = true) (hdata : level .ps2Data s = true)
    (hq : s.p.txq.empty = true) : p2dCheckBus s = setSt .P .idle (setEdge .P .fall (tmrOff .P s)) := by
  rw [p2dCheckBus_released hclk, if_neg (by simp [hdata]), if_neg (by simp [hq])]

/-- Settles O35: the four ways out of R141 and the two edge rules R144, R145. -/
theorem p2dBusCheck : Obligations.P2dBusCheck := by
  intro s armed clk data
  refine ⟨fun hclk => ?_, fun hclk hdata => ?_, fun hclk hdata hq => ?_, fun hclk hdata hq => ?_, fun hrole hst => ?_,
    fun hrole hst => ?_⟩
  · rw [p2dCheckBus_inhibited hclk, tmrOff_eq]
    rfl
  · rw [p2dCheckBus_request hclk hdata]
    rfl
  · rw [p2dCheckBus_queued hclk hdata hq]
    rfl
  · rw [p2dCheckBus_idle hclk hdata hq, tmrOff_eq]
    rfl
  · exact exec_transition (fun _ => rfl) hrole hst rfl
  · exact exec_transition (fun _ => rfl) hrole hst rfl

/-! ## A frame that is sent -/

/-- R143 in one equation. -/
theorem p2dAbort_eq (s : State) : p2dAbort s = { s with
    p := { s.p with acc := 0, bitcnt := 0, ones := 0, edgeMode := .rise, edgePend := false, st := .hostInhibit },
    own := { s.own with ps2Clk := .rel, ps2Data := .rel },
    tmr := timerWithout .P s.tmr,
    events := s.events ++ [.abort s.p.st] } := by
  simp only [p2dAbort, tmrOff_eq]
  rfl

/-- A send tick that looks at CLOCK aborts or runs its body (R143). -/
theorem exec_unlessContention {j : Instr} {c : St} {rule body : State → State} {t : State}
    (hj : ∀ s, exec j s = transition .P .device c rule s) (hrole : s.p.role = .device) (hst : s.p.st = c)
    (hrule : rule s = p2dUnlessContention body s) (hbody : body s = t) :
    exec j s = .next (if level .ps2Clk s = false then p2dAbort s else t) :=
  exec_transition hj hrole hst (hbody ▸ hrule)

/-- Settles O36: one abort for the five ticks (R143), and what each does while CLOCK is high. -/
theorem p2dSendTicks : Obligations.P2dSendTicks := by
  intro s hrole armed clk aborted fall
  have haborted : aborted = p2dAbort s := (p2dAbort_eq s).symm
  rw [haborted]
  refine ⟨fun hst => ?_, fun hst => ?_, fun hst => ?_, fun hst => ?_, fun hst => ?_⟩
  all_goals exact exec_unlessContention (fun _ => rfl) hrole hst rfl rfl

/-- Settles O37: DATA takes the data bit, the odd parity or the stop symbol, and CLOCK rises (R148, R150, R152). -/
theorem p2dPutsSymbols : Obligations.P2dPutsSymbols := by
  intro s hrole armed rise
  refine ⟨fun hst => ?_, fun hst => ?_, fun hst => ?_⟩
  · refine exec_transition (fun _ => rfl) hrole hst ?_
    rw [p2dPrepBitTmr, putBit_eq]
    rfl
  · refine exec_transition (fun _ => rfl) hrole hst ?_
    rw [p2dPrepParityTmr, driveLine_eq]
    rfl
  · exact exec_transition (fun _ => rfl) hrole hst rfl

/-! ## A frame that is received -/

/-- R157 in one equation: DATA is sampled while CLOCK is still high (R55). -/
theorem p2dWaitBitTmr_eq (s : State) : p2dWaitBitTmr s = { s with
    p := { s.p with
      acc := (s.p.acc >>> 1) ||| (if level .ps2Data s then 0x80 else 0),
      ones := s.p.ones + (if level .ps2Data s then 1 else 0),
      bitcnt := s.p.bitcnt + 1, st := .getBit },
    own := { s.own with ps2Clk := .low },
    tmr := Timer.armed .P s.cfg.ps2HalfCycleUs } := by
  rw [p2dWaitBitTmr, getBit_eq]
  rfl

/-- Settles O40: R157 has its own equation; the other six ticks move lines and arm the timer (R155 to R161). -/
theorem p2dReceiveTicks : Obligations.P2dReceiveTicks := by
  intro s hrole armed b tick
  have hsample (hst : s.p.st = .waitBit) : exec .p2dWaitBitTmr s = .next _ :=
    exec_transition (fun _ => rfl) hrole hst (p2dWaitBitTmr_eq s)
  refine ⟨fun hst => ?_, fun hst => ?_, hsample, fun hst => ?_, fun hst => ?_, fun hst => ?_, fun hst => ?_⟩
  all_goals exact exec_transition (fun _ => rfl) hrole hst rfl

/-- Settles O38: after `push` the holdoff begins in the same way whether there was room or not (R162). -/
theorem p2dCommits : Obligations.P2dCommits := by
  intro s hrole hst
  refine exec_transition (fun _ => rfl) hrole hst ?_
  rw [p2dGetAckTmr, push_P_rx_eq]
  rfl

/-! ## The holdoff -/

/-- Until the acknowledge, `ack_seen` follows one look at DATA (R154): low is the acknowledge. -/
theorem setAckSeen_of_level {l : Line} (hack : s.ackSeen = false) :
    (if level l s = false then setAckSeen true s else s) = setAckSeen (!level l s) s := by
  cases level l s
  · rfl
  · have hself : setAckSeen false s = s := by rw [← hack]; rfl
    exact hself.symm

/-- R154 before the acknowledge; the release of CLOCK does not move DATA. -/
theorem p2dHoldoffTmr_waiting (hack : s.ackSeen = false) :
    p2dHoldoffTmr s = armCfg .P .ps2HalfCycleUs (setAckSeen (!level .ps2Data s) (releaseLine .ps2Clk s)) := by
  have hfreed : (releaseLine .ps2Clk s).ackSeen = false := hack
  have hlevel : level .ps2Data (releaseLine .ps2Clk s) = level .ps2Data s := level_setOwn_other s .rel (by decide)
  rw [p2dHoldoffTmr, if_pos hfreed, setAckSeen_of_level hfreed, hlevel]

/-- R154 after the acknowledge: the count goes down, and its end is a look at the bus. -/
theorem p2dHoldoffTmr_counting (hack : s.ackSeen = true) :
    p2dHoldoffTmr s =
      let counted := setHold .P (s.p.hold - 1) (releaseLine .ps2Clk s)
      if s.p.hold - 1 = 0 then p2dCheckBus counted else armCfg .P .ps2HalfCycleUs counted :=
  if_neg (by simp [hack])

/-- Settles O39: R154 waits for the acknowledge, or counts down, or has counted to 0. -/
theorem p2dHoldoffTick : Obligations.P2dHoldoffTick := by
  intro s hrole hst armed freed counted
  refine ⟨fun hack => ?_, fun hack hmore => ?_, fun hack hlast => ?_⟩
  · exact exec_transition (fun _ => rfl) hrole hst (p2dHoldoffTmr_waiting hack)
  · refine exec_transition (fun _ => rfl) hrole hst ((p2dHoldoffTmr_counting hack).trans (if_neg ?_))
    bv_omega
  · refine exec_transition (fun _ => rfl) hrole hst ((p2dHoldoffTmr_counting hack).trans (if_pos ?_))
    bv_omega

end Sys2Proof.Machine
end

section
/-!
PROOF. The XT host's rules as equations of the state (spec/44_xt_host.md R181 to R185): the idle entry, the fall that
samples and the fall that commits, the timeout and the ticks of the reset pulse.
-/

namespace Sys2Proof.Machine

open Sys2Proof

variable {s : State}

/-- R181 in one equation. -/
theorem xthIdle_eq (s : State) : xthIdle s = { s with
    x := { s.x with edgeMode := .fall, edgePend := false, st := .idle },
    tmr := timerWithout .X s.tmr } := by
  rw [xthIdle, tmrOff_eq]
  rfl

/-! ## The falls of a frame -/

/-- `push` (R42, R44) to the `rxq` of an instance as one change of the state. -/
theorem push_rx_eq (i : Inst) (v : Byte) (s : State) : push i .rx v s =
    { s.modInst i fun w => { w with
        rxq := if (s.inst i).rxq.full s.slots then (s.inst i).rxq else (s.inst i).rxq.put s.slots v } with
      events := if (s.inst i).rxq.full s.slots then s.events ++ [.overflow i .rx] else s.events } := by
  cases hfull : (s.inst i).rxq.full s.slots
  · rw [push_room s i .rx v hfull]
    cases i <;> rfl
  · rw [push_full s i .rx v hfull]
    cases i <;> rfl

/-- R183 at a fall that is not the eighth: the symbol is sampled and the bit timeout armed. -/
theorem xthGetBitEdge_more (h : s.x.bitcnt ≠ 7) : xthGetBitEdge s = { s with
    x := { s.x with
      acc := (s.x.acc >>> 1) ||| (if level .xtData s then 0x80 else 0),
      bitcnt := s.x.bitcnt + 1,
      ones := s.x.ones + (if level .xtData s then 1 else 0),
      st := .getBit },
    tmr := Timer.armed .X s.cfg.xthBitTimeoutUs } := by
  have hmore : s.x.bitcnt + 1 ≠ 8 := by bv_omega
  rw [xthGetBitEdge, getBit_eq]
  exact if_neg hmore

/-- R182 in one equation: a fall of R183 with the frame registers cleared. -/
theorem xthIdleEdge_eq (s : State) : xthIdleEdge s = { s with
    x := { s.x with
      acc := ((0 : Byte) >>> 1) ||| (if level .xtData s then 0x80 else 0),
      bitcnt := 1,
      ones := if level .xtData s then 1 else 0,
      st := .getBit },
    tmr := Timer.armed .X s.cfg.xthBitTimeoutUs } := by
  have hfirst : (frameStart .X 0 s).x.bitcnt ≠ 7 := (by decide : (0 : Nibble) ≠ 7)
  have hones : 0 + (if level .xtData s then 1 else 0) = if level .xtData s then (1 : Nibble) else 0 :=
    BitVec.zero_add _
  rw [xthIdleEdge, xthGetBitEdge_more hfirst, ← hones]
  rfl

/-- R183 at the eighth fall: the byte with its last symbol is pushed and the host is idle again. -/
theorem xthGetBitEdge_commits (h : s.x.bitcnt = 7) : xthGetBitEdge s =
    xthIdle (frameReset .X
      (push .X .rx ((s.x.acc >>> 1) ||| (if level .xtData s then 0x80 else 0)) (getBit .X s))) := by
  have hlast : s.x.bitcnt + 1 = 8 := by rw [h]; rfl
  rw [xthGetBitEdge, getBit_eq]
  exact if_pos hlast

/-- Settles O41: fall 1 starts the frame (R182), falls 2 to 7 sample, fall 8 commits the byte (R183). -/
theorem xthFalls : Obligations.XthFalls := by
  intro s hrole b armed acc
  refine ⟨fun hst => ?_, fun hst hmore => ?_, fun hst hlast => ?_⟩
  · exact exec_transition (fun _ => rfl) hrole hst (xthIdleEdge_eq s)
  · refine exec_transition (fun _ => rfl) hrole hst ?_
    rw [xthGetBitEdge_more hmore, ← hst]
    rfl
  · refine exec_transition (fun _ => rfl) hrole hst ?_
    rw [xthGetBitEdge_commits hlast, push_rx_eq, getBit_eq, xthIdle_eq]
    rfl

/-! ## The timeout and the reset pulse -/

/-- R185 before the last tick. -/
theorem xthResetTmr_counting (h : s.x.hold ≠ 1) :
    xthResetTmr s = armCfg .X .xtHalfCycleUs (setHold .X (s.x.hold - 1) s) := by
  have hmore : s.x.hold - 1 ≠ 0 := by bv_omega
  exact if_neg hmore

/-- R185 at the last tick: CLOCK is released before the detector is set to `FALL` (R181). -/
theorem xthResetTmr_ends (h : s.x.hold = 1) : xthResetTmr s = xthIdle (releaseLine .xtClk (setHold .X 0 s)) := by
  have hzero : s.x.hold - 1 = 0 := by rw [h]; rfl
  rw [← hzero]
  exact if_pos hzero

/-- Settles O42: the timeout (R184) and the end of the reset pulse (R185) both end with the idle entry. -/
theorem xthTicks : Obligations.XthTicks := by
  intro s hrole
  refine ⟨fun hst => ?_, fun hst hmore => ?_, fun hst hlast => ?_⟩
  · exact exec_transition (fun _ => rfl) hrole hst (xthIdle_eq _)
  · exact exec_transition (fun _ => rfl) hrole hst (xthResetTmr_counting hmore)
  · exact exec_transition (fun _ => rfl) hrole hst ((xthResetTmr_ends hlast).trans (xthIdle_eq _))

end Sys2Proof.Machine
end

section
/-!
PROOF. The XT device's rules as equations of the state (spec/45_xt_device.md R191 to R199): the bus check and its four
ways out, the ticks of a frame that is sent with the abort, the holdoff, and the polls of an inhibit up to the reset
request.
-/

namespace Sys2Proof.Machine

open Sys2Proof

variable {s : State}

/-! ## The bus check -/

/-- R191: CLOCK low is the host's inhibit, whatever DATA and `txq` are. -/
theorem xtdCheckBus_inhibited (hclk : level .xtClk s = false) : xtdCheckBus s = xtdInhibit s := if_pos hclk

/-- R191 with CLOCK high: a queued byte waits for DATA, and an empty `txq` is idle. -/
theorem xtdCheckBus_released (hclk : level .xtClk s = true) :
    xtdCheckBus s =
      if s.x.txq.empty = false then if level .xtData s then xtdStartSend s else xtdNotReady s
      else setSt .X .idle (setEdge .X .fall (tmrOff .X s)) :=
  if_neg (by simp [hclk])

theorem xtdCheckBus_ready (hclk : level .xtClk s = true) (hq : s.x.txq.empty = false)
    (hdata : level .xtData s = true) : xtdCheckBus s = xtdStartSend s := by
  rw [xtdCheckBus_released hclk, if_pos hq, if_pos hdata]

theorem xtdCheckBus_notReady (hclk : level .xtClk s = true) (hq : s.x.txq.empty = false)
    (hdata : level .xtData s = false) : xtdCheckBus s = xtdNotReady s := by
  rw [xtdCheckBus_released hclk, if_pos hq, if_neg (by simp [hdata])]

theorem xtdCheckBus_idle (hclk : level .xtClk s = true) (hq : s.x.txq.empty = true) :
    xtdCheckBus s = setSt .X .idle (setEdge .X .fall (tmrOff .X s)) := by
  rw [xtdCheckBus_released hclk, if_neg (by simp [hq])]

/-- Settles O43: the four ways out of R191, the first of which is also the rule of `IDLE/EDGE` (R194). -/
theorem xtdBusCheck : Obligations.XtdBusCheck := by
  intro s armed clk data inhibited
  refine ⟨fun hclk => ?_, fun hclk hq hdata => ?_, fun hclk hq hdata => ?_, fun hclk hq => ?_, fun hrole hst => ?_⟩
  · rw [xtdCheckBus_inhibited hclk]
    rfl
  · rw [xtdCheckBus_ready hclk hq hdata]
    rfl
  · rw [xtdCheckBus_notReady hclk hq hdata]
    rfl
  · rw [xtdCheckBus_idle hclk hq, tmrOff_eq]
    rfl
  · exact exec_transition (fun _ => rfl) hrole hst rfl

/-! ## A frame that is sent -/

/-- R192: what the abort does to the state before it looks at the bus. -/
theorem xtdAbort_eq (s : State) : xtdAbort s = xtdCheckBus { s with
    x := { s.x with acc := 0, bitcnt := 0, ones := 0 },
    own := { s.own with xtClk := .rel, xtData := .rel },
    events := s.events ++ [.abort s.x.st] } := rfl

/-- A line the far end holds low reads low, whatever the block drives. -/
theorem level_of_ext_low {l : Line} (hext : s.ext.get l = .low) : level l s = false := by simp [level, hext]

/-- R197 while data symbols are left. -/
theorem xtdPrepBitTmr_more (h : s.x.bitcnt < 8) :
    xtdPrepBitTmr s = xtdTick .sendBit (putBit .X (releaseLine .xtClk s)) := if_pos h

/-- R197 after the eighth data symbol. -/
theorem xtdPrepBitTmr_last (h : ¬s.x.bitcnt < 8) :
    xtdPrepBitTmr s = xtdTick .holdoff (frameReset .X (setHold .X s.cfg.xtHoldoffTicks
      (releaseLine .xtData (releaseLine .xtClk s)))) := if_neg h

/-- Settles O44: the two ticks that look at CLOCK share the abort (R192, R195, R196), which the far end's low CLOCK
makes an inhibit; R197 puts the next symbol or ends the frame. -/
theorem xtdSendTicks : Obligations.XtdSendTicks := by
  intro s hrole armed clk bit data put dropped
  have hdropped : xtdAbort s = xtdCheckBus dropped := xtdAbort_eq s
  refine ⟨fun hst => ?_, fun hst => ?_, fun hext => ?_, fun hst hmore => ?_, fun hst hlast => ?_⟩
  · refine exec_transition (fun _ => rfl) hrole hst ?_
    rw [xtdSendStartTmr, hdropped, putBit_eq]
    rfl
  · refine exec_transition (fun _ => rfl) hrole hst ?_
    rw [xtdSendBitTmr, hdropped]
    rfl
  · exact xtdCheckBus_inhibited (level_of_ext_low hext)
  · refine exec_transition (fun _ => rfl) hrole hst ?_
    rw [xtdPrepBitTmr_more hmore, putBit_eq]
    rfl
  · exact exec_transition (fun _ => rfl) hrole hst (xtdPrepBitTmr_last (BitVec.not_lt.mpr hlast))

/-! ## The holdoff and the polls of an inhibit -/

/-- R198 before the last tick. -/
theorem xtdHoldoffTmr_counting (h : s.x.hold ≠ 1) :
    xtdHoldoffTmr s = armCfg .X .xtHalfCycleUs (setHold .X (s.x.hold - 1) s) := by
  have hmore : s.x.hold - 1 ≠ 0 := by bv_omega
  exact if_neg hmore

/-- R198 at the last tick. -/
theorem xtdHoldoffTmr_ends (h : s.x.hold = 1) : xtdHoldoffTmr s = xtdCheckBus (setHold .X 0 s) := by
  have hzero : s.x.hold - 1 = 0 := by rw [h]; rfl
  rw [← hzero]
  exact if_pos hzero

/-- R199 with CLOCK low: the poll is counted and the next one armed. -/
theorem xtdHostInhibitTmr_low (hclk : level .xtClk s = false) :
    xtdHostInhibitTmr s = armCfg .X .xtHalfCycleUs (xtdCountInhibit s) := if_pos hclk

/-- R199 with CLOCK high: the inhibit is over. -/
theorem xtdHostInhibitTmr_high (hclk : level .xtClk s = true) : xtdHostInhibitTmr s = xtdCheckBus s :=
  if_neg (by simp [hclk])

/-- R199: `hold` stays at 255. -/
theorem xtdCountInhibit_saturated (h : s.x.hold = 255) : xtdCountInhibit s = s :=
  if_neg (by rw [h]; decide)

/-- R199 below 255: a poll is counted, and the one that makes `hold` equal to `XT_RESET_TICKS` asks for a reset. -/
theorem xtdCountInhibit_counts (h : s.x.hold ≠ 255) : xtdCountInhibit s =
    if s.x.hold + 1 = s.cfg.xtResetTicks then xtdResetRequest (setHold .X (s.x.hold + 1) s)
    else setHold .X (s.x.hold + 1) s := by
  have hlt : s.x.hold < 255 := by bv_omega
  exact if_pos hlt

/-- A cleared queue of at least two slots has room (R7, R45). -/
theorem Queue.full_clear {n : Nat} (q : Queue) (h : 2 ≤ n) : q.clear.full n = false := by
  simp [Queue.full, Queue.clear, nextIndex, Nat.mod_eq_of_lt h]

/-- R193 in one equation: both queues are cleared and the self-test code is in slot 0 of `txq`. -/
theorem xtdResetRequest_eq (h : 2 ≤ s.slots) : xtdResetRequest s = { s with
    x := { s.x with
      txq := { buf := Memory.write s.x.txq.buf 0 s.cfg.xtBatCode, head := 1, tail := 0 },
      rxq := { s.x.rxq with head := 0, tail := 0 } },
    events := s.events ++ [.resetRequest] } := by
  have hroom : s.x.txq.clear.full s.slots = false := Queue.full_clear _ h
  have hhead : nextIndex s.slots 0 = 1 := Nat.mod_eq_of_lt h
  rw [xtdResetRequest, push_room (clear .X .rx (clear .X .tx s)) .X .tx _ hroom, ← hhead]
  rfl

/-- Settles O45: a holdoff tick counts down to a look at the bus (R198); a poll that finds CLOCK low counts up to 255,
with the reset request on the way (R193, R199). -/
theorem xtdHoldoffAndPolls : Obligations.XtdHoldoffAndPolls := by
  intro s hrole armed counted
  have hpoll (hst : s.x.st = .hostInhibit) (hclk : level .xtClk s = false) :
      exec .xtdHostInhibitTmr s = .next (armCfg .X .xtHalfCycleUs (xtdCountInhibit s)) :=
    exec_transition (fun _ => rfl) hrole hst (xtdHostInhibitTmr_low hclk)
  refine ⟨fun hst hmore => ?_, fun hst hlast => ?_, fun hst hclk => ?_, fun hst hclk hmax => ?_,
    fun hst hclk hmax hother => ?_, fun hst hclk hmax hreset hslots => ?_⟩
  · exact exec_transition (fun _ => rfl) hrole hst (xtdHoldoffTmr_counting hmore)
  · exact exec_transition (fun _ => rfl) hrole hst (xtdHoldoffTmr_ends hlast)
  · exact exec_transition (fun _ => rfl) hrole hst (xtdHostInhibitTmr_high hclk)
  · rw [hpoll hst hclk, xtdCountInhibit_saturated hmax]
    rfl
  · rw [hpoll hst hclk, xtdCountInhibit_counts hmax, if_neg hother]
    rfl
  · have hslots' : 2 ≤ (setHold .X (s.x.hold + 1) s).slots := hslots
    rw [hpoll hst hclk, xtdCountInhibit_counts hmax, if_pos hreset, xtdResetRequest_eq hslots']
    rfl

end Sys2Proof.Machine
end

section
/-!
PROOF. INIT and RESET (spec/46_foreground_commands.md R211, R216; 70_reset_and_hazards.md R271): the common part of both
leaves `freshState`, whatever the far end holds, and R99 sees no edge in it.
-/

namespace Sys2Proof.Machine

open Sys2Proof

variable {i : Inst} {r : Role} {rr : Byte} {l : Line} {s : State}

/-! ## What the idle-entry function starts from -/

theorem cleared_P (s : State) : cleared .P s = { s with
    p := { s.p with
      acc := 0, bitcnt := 0, ones := 0, hold := 0,
      txq := { s.p.txq with head := 0, tail := 0 }, rxq := { s.p.rxq with head := 0, tail := 0 } },
    ackSeen := true, tmr := timerWithout .P s.tmr, own := { s.own with ps2Clk := .rel, ps2Data := .rel } } := by
  simp only [cleared, tmrOff_eq]
  rfl

theorem cleared_X (s : State) : cleared .X s = { s with
    x := { s.x with
      acc := 0, bitcnt := 0, ones := 0, hold := 0,
      txq := { s.x.txq with head := 0, tail := 0 }, rxq := { s.x.rxq with head := 0, tail := 0 } },
    tmr := timerWithout .X s.tmr, own := { s.own with xtClk := .rel, xtData := .rel } } := by
  simp only [cleared, tmrOff_eq]
  rfl

/-- The timer is given up already when the idle-entry function gives it up (R92). -/
theorem tmrOff_cleared_P (s : State) : tmrOff .P (cleared .P s) = cleared .P s :=
  if_neg (by rw [cleared_tmr]; exact timerWithout_owner_ne .P s.tmr)

theorem tmrOff_cleared_X (s : State) : tmrOff .X (cleared .X s) = cleared .X s :=
  if_neg (by rw [cleared_tmr]; exact timerWithout_owner_ne .X s.tmr)

theorem cleared_txq_empty (i : Inst) (s : State) : ((cleared i s).inst i).txq.empty = true := by
  cases i
  · rw [cleared_P]; rfl
  · rw [cleared_X]; rfl

/-- A released line has the level the far end gives it (R84). -/
theorem level_cleared_eq (hl : l = clkOf i ∨ l = dataOf i) (s : State) :
    level l (cleared i s) = (s.ext.get l == .rel) := by
  cases i
  · rw [cleared_P]; rcases hl with rfl | rfl <;> rfl
  · rw [cleared_X]; rcases hl with rfl | rfl <;> rfl

theorem level_cleared_low (hl : l = clkOf i ∨ l = dataOf i) (he : s.ext.get l = .low) :
    level l (cleared i s) = false := by
  rw [level_cleared_eq hl, he]; rfl

theorem level_cleared_rel (hl : l = clkOf i ∨ l = dataOf i) (he : s.ext.get l = .rel) :
    level l (cleared i s) = true := by
  rw [level_cleared_eq hl, he]; rfl

/-! ## The cases of R271 -/

theorem reinit_p2h (hr : s.p.role = .host) : reinit .P s = freshState .P .host s := by
  have hr' : (cleared .P s).p.role = .host := (TouchesOnly.cleared .P s).role.trans hr
  rw [reinit_eq, idleEntry_p2h hr', p2hCheckForData_empty (cleared_txq_empty .P s), tmrOff_cleared_P, cleared_P,
    freshState, freshInst, ← hr]
  rfl

theorem reinit_p2d (hr : s.p.role = .device) : reinit .P s = freshState .P .device s := by
  have hr' : (cleared .P s).p.role = .device := (TouchesOnly.cleared .P s).role.trans hr
  rw [reinit_eq, idleEntry_p2d hr']
  cases hc : s.ext.ps2Clk with
  | low =>
    rw [p2dCheckBus_inhibited (level_cleared_low (.inl rfl) hc), tmrOff_cleared_P, cleared_P]
    simp only [freshState, freshInst, hc, ← hr]
    rfl
  | rel =>
    have hclk : level .ps2Clk (cleared .P s) = true := level_cleared_rel (.inl rfl) hc
    cases hd : s.ext.ps2Data with
    | low =>
      rw [p2dCheckBus_request hclk (level_cleared_low (.inr rfl) hd), cleared_P]
      simp only [freshState, freshInst, hc, hd, ← hr]
      rfl
    | rel =>
      rw [p2dCheckBus_idle hclk (level_cleared_rel (.inr rfl) hd) (cleared_txq_empty .P s), tmrOff_cleared_P, cleared_P]
      simp only [freshState, freshInst, hc, hd, ← hr]
      rfl

theorem reinit_xth (hr : s.x.role = .host) : reinit .X s = freshState .X .host s := by
  have hr' : (cleared .X s).x.role = .host := (TouchesOnly.cleared .X s).role.trans hr
  rw [reinit_eq, idleEntry_xth hr', xthIdle, tmrOff_cleared_X, cleared_X, freshState, freshInst, ← hr]
  rfl

theorem reinit_xtd (hr : s.x.role = .device) : reinit .X s = freshState .X .device s := by
  have hr' : (cleared .X s).x.role = .device := (TouchesOnly.cleared .X s).role.trans hr
  rw [reinit_eq, idleEntry_xtd hr']
  cases hc : s.ext.xtClk with
  | low =>
    rw [xtdCheckBus_inhibited (level_cleared_low (.inl rfl) hc), cleared_X]
    simp only [freshState, freshInst, hc, ← hr]
    rfl
  | rel =>
    rw [xtdCheckBus_idle (level_cleared_rel (.inl rfl) hc) (cleared_txq_empty .X s), tmrOff_cleared_X, cleared_X]
    simp only [freshState, freshInst, hc, ← hr]
    rfl

/-- R271 for an instance in a role. -/
theorem reinit_eq_freshState (hr : (s.inst i).role = r) (hn : r ≠ .none) : reinit i s = freshState i r s := by
  cases r with
  | none => exact absurd rfl hn
  | host =>
    cases i
    · exact reinit_p2h hr
    · exact reinit_xth hr
  | device =>
    cases i
    · exact reinit_p2d hr
    · exact reinit_xtd hr

/-- Nothing of the instance's role from before is left. -/
theorem freshState_setRole (i : Inst) (hn : r ≠ .none) (s : State) :
    freshState i r (setRole i r s) = freshState i r s := by
  cases r with
  | none => exact absurd rfl hn
  | host => cases i <;> rfl
  | device => cases i <;> rfl

/-! ## R99 after INIT and RESET -/

theorem level_freshState (hn : r ≠ .none) (l : Line) (s : State) :
    level l (freshState i r s) = level l (cleared i s) := by
  cases i
  · rw [cleared_P]
    cases r with
    | none => exact absurd rfl hn
    | host => rfl
    | device => cases hc : s.ext.ps2Clk <;> cases hd : s.ext.ps2Data <;> simp [freshState, hc, hd, level]
  · rw [cleared_X]
    cases r with
    | none => exact absurd rfl hn
    | host => rfl
    | device => cases hc : s.ext.xtClk <;> simp [freshState, hc, level]

/-- R271 selects RISE only with CLOCK held low by the far end. -/
theorem edgeMode_freshState (hn : r ≠ .none) (h : ((freshState i r s).inst i).edgeMode = .rise) :
    s.ext.get (clkOf i) = .low := by
  cases i
  · cases r with
    | none => exact absurd rfl hn
    | host => cases h
    | device =>
      cases hc : s.ext.ps2Clk with
      | low => exact hc
      | rel => cases hd : s.ext.ps2Data <;> simp [freshState, freshInst, hc, hd] at h
  · cases r with
    | none => exact absurd rfl hn
    | host => cases h
    | device =>
      cases hc : s.ext.xtClk with
      | low => exact hc
      | rel => simp [freshState, freshInst, hc] at h

theorem edgeSeen_freshState (hn : r ≠ .none) (s : State) :
    edgeSeen ((freshState i r s).inst i).edgeMode (level (clkOf i) s) (level (clkOf i) (freshState i r s)) = false := by
  rw [level_freshState hn]
  cases hm : ((freshState i r s).inst i).edgeMode with
  | off => rfl
  | fall =>
    cases hl : level (clkOf i) s with
    | false => rfl
    | true => rw [level_cleared hl]; rfl
  | rise => rw [level_cleared_low (.inl rfl) (edgeMode_freshState hn hm)]; simp [edgeSeen]

theorem TouchesOnly.level_clk_other {t : State} (h : TouchesOnly i s t) :
    level (clkOf (otherInst i)) t = level (clkOf (otherInst i)) s := by
  unfold level
  rw [h.own _ (otherInst_clk_ne i) (clkOf_ne_dataOf _ _), h.ext]

theorem detectEdges_freshState (hn : r ≠ .none) (s : State) :
    detectEdges s (freshState i r s) = freshState i r s := by
  refine detectEdges_of_unseen _ s fun k => ?_
  rcases inst_cases i k with rfl | rfl
  · exact edgeSeen_freshState hn s
  · rw [level_freshState hn, (TouchesOnly.cleared i s).level_clk_other, edgeSeen_same]

/-! ## The commands -/

theorem initCommand_refused (h : (rr ≠ 1 ∧ rr ≠ 2) ∨ (s.inst i).role ≠ .none) :
    initCommand i rr s = refuse s := by
  unfold initCommand
  cases hr : roleOfOperand rr with
  | none => rfl
  | some r =>
    refine if_neg fun hs => h.elim (fun hrr => ?_) (fun hn => hn hs)
    rcases roleOfOperand_cases hr with ⟨h1, -⟩ | ⟨h2, -⟩
    · exact hrr.1 h1
    · exact hrr.2 h2

theorem initCommand_free (hr : roleOfOperand rr = some r) (hs : (s.inst i).role = .none) :
    initCommand i rr s = answer 0 (freshState i r s) := by
  have hn : r ≠ .none := by rcases roleOfOperand_cases hr with ⟨-, rfl⟩ | ⟨-, rfl⟩ <;> nofun
  have hrole : ((setRole i r s).inst i).role = r := by simp
  simp only [initCommand, hr]
  rw [if_pos hs, reinit_eq_freshState hrole hn, freshState_setRole i hn]

theorem resetCommand_refused (hs : (s.inst i).role = .none) : resetCommand i s = refuse s := if_pos hs

theorem resetCommand_free (hs : (s.inst i).role ≠ .none) :
    resetCommand i s = answer 0 (freshState i (s.inst i).role s) := by
  rw [resetCommand, if_neg hs, reinit_eq_freshState rfl hs]

theorem asStep_freshState {body : State → State} (hd : deliverable s = none) (hn : r ≠ .none)
    (hb : body s = answer 0 (freshState i r s)) : asStep body s = .next (answer 0 (freshState i r s)) := by
  rw [asStep_enabled s body hd, hb, detectEdges_answer, detectEdges_freshState hn]

theorem asStep_initCommand (hd : deliverable s = none) (hr : rr = 1 ∧ r = .host ∨ rr = 2 ∧ r = .device)
    (hs : (s.inst i).role = .none) : asStep (initCommand i rr) s = .next (answer 0 (freshState i r s)) := by
  rcases hr with ⟨rfl, rfl⟩ | ⟨rfl, rfl⟩
  · exact asStep_freshState hd nofun (initCommand_free rfl hs)
  · exact asStep_freshState hd nofun (initCommand_free rfl hs)

/-- Settles O17: INIT and RESET are refused, or leave R271's state, in which R99 sees no edge. -/
theorem initAndReset : Obligations.InitAndReset := by
  intro rr s hd
  exact ⟨fun r hr => ⟨asStep_initCommand (i := .P) hd hr, asStep_initCommand (i := .X) hd hr⟩,
    fun h => asStep_refuse hd (initCommand_refused (i := .P) h),
    fun h => asStep_refuse hd (initCommand_refused (i := .X) h),
    fun h => asStep_refuse hd (resetCommand_refused (i := .P) h),
    fun h => asStep_refuse hd (resetCommand_refused (i := .X) h),
    fun h => asStep_freshState hd h (resetCommand_free (i := .P) h),
    fun h => asStep_freshState hd h (resetCommand_free (i := .X) h)⟩

end Sys2Proof.Machine
end

section
/-!
PROOF. The queue, state and configuration commands (spec/46_foreground_commands.md R212 to R215, R217 to R220): what
each answers in the states in which its rule refuses, blocks, or acts.
-/

namespace Sys2Proof.Machine

open Sys2Proof

variable {i : Inst} {b v : Byte} {k : BitVec 4} {c : CfgReg} {n : Nat} {s : State}

/-! ## PUT -/

theorem putCommand_noRole (h : (s.inst i).role = .none) : putCommand i b s = refuse s := if_pos h

theorem putCommand_xtHost (h : s.x.role = .host) : putCommand .X b s = refuse s := by
  simp [putCommand, h]

/-- R212 on a full queue: refused by its rule or blocked, the answer is the same (R210). -/
theorem putCommand_full (h : (s.inst i).txq.full s.slots = true) : putCommand i b s = refuse s := by
  simp [putCommand, h]

/-- The byte is queued behind those that wait (R212, R42). -/
def queueByte (i : Inst) (b : Byte) (s : State) : State :=
  s.modInst i fun w => { w with txq := w.txq.put s.slots b }

theorem push_tx_room (h : (s.inst i).txq.full s.slots = false) : push i .tx b s = queueByte i b s := by
  rw [push_room s i .tx b h]
  cases i <;> rfl

/-- R212 with room: PUT acts on an instance whose engine sends. -/
theorem putCommand_room (hr : (s.inst i).role ≠ .none) (hx : ¬(i = .X ∧ (s.inst i).role = .host))
    (h : (s.inst i).txq.full s.slots = false) : putCommand i b s =
      answer 0 (if (s.inst i).st = .idle then idleEntry i (queueByte i b s) else queueByte i b s) := by
  have hst : ((queueByte i b s).inst i).st = (s.inst i).st := by simp [queueByte]
  simp [putCommand, hr, hx, h, push_tx_room h, hst]

theorem asStep_putCommand_waits (hd : deliverable s = none) (hr : (s.inst i).role ≠ .none)
    (hx : ¬(i = .X ∧ (s.inst i).role = .host)) (h : (s.inst i).txq.full s.slots = false)
    (hst : (s.inst i).st ≠ .idle) : asStep (putCommand i b) s = .next (answer 0 (queueByte i b s)) :=
  asStep_quiet s _ hd (by rw [putCommand_room hr hx h, if_neg hst]) fun _ => level_modInst s _ i _

theorem asStep_putCommand_starts (hd : deliverable s = none) (hr : (s.inst i).role ≠ .none)
    (hx : ¬(i = .X ∧ (s.inst i).role = .host)) (h : (s.inst i).txq.full s.slots = false)
    (hst : (s.inst i).st = .idle) :
    asStep (putCommand i b) s = .next (detectEdges s (answer 0 (idleEntry i (queueByte i b s)))) := by
  rw [asStep_enabled s _ hd, putCommand_room hr hx h, if_pos hst]

/-- Settles O18: an instance that cannot send refuses; with room the byte waits, or the engine of the role starts. -/
theorem putQueuesAndStarts : Obligations.PutQueuesAndStarts := by
  intro b s hd
  refine ⟨fun hr => ?_, fun hr => ?_, fun hr h hst => ?_, fun hr h hst => ?_, fun hr h hst => ?_, fun hr h hst => ?_,
    fun hr h hst => ?_⟩
  · exact asStep_refuse hd (putCommand_noRole (i := .P) hr)
  · cases hx : s.x.role with
    | none => exact asStep_refuse hd (putCommand_noRole (i := .X) hx)
    | host => exact asStep_refuse hd (putCommand_xtHost hx)
    | device => exact absurd hx hr
  · exact asStep_putCommand_waits (i := .P) hd hr (by simp) h hst
  · exact asStep_putCommand_waits (i := .X) hd (by simp [hr]) (by simp [hr]) h hst
  · have hstart : idleEntry .P (queueByte .P b s) = p2hCheckForData (queueByte .P b s) := idleEntry_p2h hr
    exact hstart ▸ asStep_putCommand_starts (i := .P) hd (by simp [hr]) (by simp) h hst
  · have hstart : idleEntry .P (queueByte .P b s) = p2dCheckBus (queueByte .P b s) := idleEntry_p2d hr
    exact hstart ▸ asStep_putCommand_starts (i := .P) hd (by simp [hr]) (by simp) h hst
  · have hstart : idleEntry .X (queueByte .X b s) = xtdCheckBus (queueByte .X b s) := idleEntry_xtd hr
    exact hstart ▸ asStep_putCommand_starts (i := .X) hd (by simp [hr]) (by simp [hr]) h hst

/-! ## GET -/

theorem getCommand_noRole (h : (s.inst i).role = .none) : getCommand i s = refuse s := if_pos h

theorem getCommand_xtDevice (h : s.x.role = .device) : getCommand .X s = refuse s := by
  simp [getCommand, h]

/-- R213 on an empty queue: refused by its rule or blocked, the answer is the same (R210). -/
theorem getCommand_empty (h : (s.inst i).rxq.empty = true) : getCommand i s = refuse s := by
  simp [getCommand, h]

/-- R213 on an instance whose engine receives. -/
theorem getCommand_queued (hr : (s.inst i).role ≠ .none) (hx : ¬(i = .X ∧ (s.inst i).role = .device))
    (h : (s.inst i).rxq.empty = false) :
    getCommand i s = answer (s.inst i).rxq.front (setQueue i .rx ((s.inst i).rxq.drop s.slots) s) := by
  simp [getCommand, hr, hx, h]

theorem asStep_getCommand_queued (hd : deliverable s = none) (hr : (s.inst i).role ≠ .none)
    (hx : ¬(i = .X ∧ (s.inst i).role = .device)) (h : (s.inst i).rxq.empty = false) :
    asStep (getCommand i) s =
      .next (answer (s.inst i).rxq.front (setQueue i .rx ((s.inst i).rxq.drop s.slots) s)) :=
  asStep_quiet s _ hd (getCommand_queued hr hx h) fun _ => level_modInst s _ i _

/-- Settles O19: an instance that cannot receive refuses; otherwise the byte at `tail` is the answer. -/
theorem getTakesTheOldest : Obligations.GetTakesTheOldest := by
  intro s hd
  refine ⟨fun hr => ?_, fun hr => ?_, fun hr h => ?_, fun hr h => ?_⟩
  · exact asStep_refuse hd (getCommand_noRole (i := .P) hr)
  · cases hx : s.x.role with
    | none => exact asStep_refuse hd (getCommand_noRole (i := .X) hx)
    | host => exact absurd hx hr
    | device => exact asStep_refuse hd (getCommand_xtDevice hx)
  · exact asStep_getCommand_queued (i := .P) hd hr (by simp) h
  · exact asStep_getCommand_queued (i := .X) hd (by simp [hr]) (by simp [hr]) h

/-- Settles O20: a full `txq` and an empty `rxq` answer `refused` whatever the role. -/
theorem blockedCommandsAnswerRefused : Obligations.BlockedCommandsAnswerRefused := by
  intro b s hd
  exact ⟨fun h => asStep_refuse hd (putCommand_full (i := .P) h),
    fun h => asStep_refuse hd (putCommand_full (i := .X) h),
    fun h => asStep_refuse hd (getCommand_empty (i := .P) h),
    fun h => asStep_refuse hd (getCommand_empty (i := .X) h)⟩

/-! ## Counts and states -/

theorem Queue.length_toList_lt (h : 0 < n) (q : Queue) : (q.toList n).length < n := by
  rw [Queue.length_toList]
  exact Nat.mod_lt _ h

/-- The count of a queue is the number of bytes it holds (R41, R214, R215). -/
theorem asStep_countCommand (hd : deliverable s = none) (i : Inst) (d : Dir) :
    asStep (countCommand i d) s =
      .next (answer (BitVec.ofNat 8 (((s.inst i).queue d).toList s.slots).length) s) := by
  rw [Queue.length_toList]
  exact asStep_quiet s _ hd rfl fun _ => rfl

theorem asStep_stateCommand (hd : deliverable s = none) (i : Inst) :
    asStep (stateCommand i) s = .next (answer (BitVec.ofNat 8 (s.inst i).st.code.toNat) s) := by
  rw [BitVec.ofNat_toNat]
  exact asStep_quiet s _ hd rfl fun _ => rfl

/-- An instance without a role has never left IDLE, whose code is 0 (R68, R217). -/
theorem asStep_stateCommand_noRole (hd : deliverable s = none) (hi : InstInv i s) (hr : (s.inst i).role = .none) :
    asStep (stateCommand i) s = .next (answer 0x00 s) := by
  obtain ⟨-, -, -, hst⟩ := (instInv_of_role_none hr).mp hi
  rw [asStep_stateCommand hd, hst]
  rfl

/-- Settles O21: no count moves a line, and a state without a role is IDLE by the invariant. -/
theorem countsAndState : Obligations.CountsAndState := by
  intro s hd
  refine ⟨fun hpos _ => ⟨Queue.length_toList_lt hpos, ?_, ?_, ?_, ?_⟩, ?_, ?_, fun hi hr => ?_, fun hi hr => ?_⟩
  · exact asStep_countCommand hd .P .rx
  · exact asStep_countCommand hd .P .tx
  · exact asStep_countCommand hd .X .rx
  · exact asStep_countCommand hd .X .tx
  · exact asStep_stateCommand hd .P
  · exact asStep_stateCommand hd .X
  · exact asStep_stateCommand_noRole hd hi hr
  · exact asStep_stateCommand_noRole hd hi hr

/-! ## The host's reset pulse -/

theorem hresetCommand_refused (h : ¬(s.x.role = .host ∧ s.x.st = .idle)) : hresetCommand s = refuse s :=
  if_pos (Decidable.not_and_iff_or_not.mp h)

/-- R218 up to the answer. -/
def startResetPulse (s : State) : State :=
  setSt .X .reset (armCfg .X .xtHalfCycleUs (setHold .X s.cfg.xthResetTicks (assertLine .xtClk (setEdge .X .off s))))

theorem hresetCommand_idle (hr : s.x.role = .host) (hst : s.x.st = .idle) :
    hresetCommand s = answer 0 (startResetPulse s) :=
  if_neg (by simp [hr, hst])

/-- The fall of CLOCK is the host's own: its detector is off (R218). -/
theorem detectEdges_startResetPulse (s : State) : detectEdges s (startResetPulse s) = startResetPulse s := by
  refine detectEdges_of_unseen _ s fun i => ?_
  cases i with
  | P => exact edgeSeen_same _ _
  | X => rfl

/-- Settles O22: HRESET is refused, or starts the pulse, whose fall of CLOCK R99 does not see. -/
theorem hostResetPulseStarts : Obligations.HostResetPulseStarts := by
  intro s hd
  refine ⟨fun ⟨hr, hst⟩ => ?_, fun h => asStep_refuse hd (hresetCommand_refused h)⟩
  have hstep : asStep hresetCommand s = .next (answer 0 (startResetPulse s)) := by
    rw [asStep_enabled s _ hd, hresetCommand_idle hr hst, detectEdges_answer, detectEdges_startResetPulse]
  exact hstep

/-! ## Configuration registers -/

theorem cfgOfIndex_eq_none (h : 12 < k.toNat) : cfgOfIndex k = none := by decide +revert

/-- Indices 0 to 10 name the registers in which 0 is reserved (R29). -/
theorem exists_cfgOfIndex_zeroReserved (h : k.toNat ≤ 10) :
    ∃ c, cfgOfIndex k = some c ∧ zeroReserved c = true := by
  have hany : (cfgOfIndex k).any zeroReserved = true := by decide +revert
  exact (Option.any_eq_true _ _).mp hany

theorem cfgStored_of_zeroReserved (h : zeroReserved c = true) (v : Byte) : cfgStored c v = v := by
  cases c
  case options => cases h
  all_goals rfl

theorem cfgWrCommand_noRegister (h : cfgOfIndex k = none) : cfgWrCommand k v s = refuse s := by
  simp [cfgWrCommand, h]

theorem cfgWrCommand_reserved (h : k.toNat ≤ 10) : cfgWrCommand k 0 s = refuse s := by
  obtain ⟨c, hc, hz⟩ := exists_cfgOfIndex_zeroReserved h
  simp [cfgWrCommand, hc, hz]

theorem cfgWrCommand_stores (hc : cfgOfIndex k = some c) (h : zeroReserved c = true → v ≠ 0) :
    cfgWrCommand k v s = answer 0 (setCfg c (cfgStored c v) s) := by
  simp only [cfgWrCommand, hc]
  exact if_neg fun ⟨hz, hv⟩ => h hz hv

theorem cfgWrCommand_timing (hc : cfgOfIndex k = some c) (hk : k.toNat ≤ 10) (hv : v ≠ 0) :
    cfgWrCommand k v s = answer 0 (setCfg c v s) := by
  obtain ⟨c', hc', hz⟩ := exists_cfgOfIndex_zeroReserved hk
  obtain rfl : c = c' := Option.some.inj (hc.symm.trans hc')
  rw [cfgWrCommand_stores hc fun _ => hv, cfgStored_of_zeroReserved hz]

theorem cfgRdCommand_noRegister (h : cfgOfIndex k = none) : cfgRdCommand k s = refuse s := by
  simp [cfgRdCommand, h]

theorem cfgRdCommand_register (hc : cfgOfIndex k = some c) : cfgRdCommand k s = answer (s.cfg.get c) s := by
  simp [cfgRdCommand, hc]

/-- Settles O23: the index names no register, a timing register, `XT_BAT_CODE` or `OPTIONS` (R29). -/
theorem configCommands : Obligations.ConfigCommands := by
  refine ⟨rfl, fun k v s hd => ⟨fun hk => ?_, ?_, fun c hc hk hv => ?_, ?_, ?_, fun c hc => ?_⟩⟩
  · have hnone : cfgOfIndex k = none := cfgOfIndex_eq_none hk
    exact ⟨asStep_refuse hd (cfgWrCommand_noRegister hnone), asStep_refuse hd (cfgRdCommand_noRegister hnone)⟩
  · rintro hk rfl
    exact asStep_refuse hd (cfgWrCommand_reserved hk)
  · exact asStep_quiet s _ hd (cfgWrCommand_timing hc hk hv) fun _ => rfl
  · rintro rfl
    exact asStep_quiet s _ hd (cfgWrCommand_stores (c := .xtBatCode) rfl nofun) fun _ => rfl
  · rintro rfl
    exact asStep_quiet s _ hd (cfgWrCommand_stores (c := .options) rfl nofun) fun _ => rfl
  · exact asStep_quiet s _ hd (cfgRdCommand_register hc) fun _ => rfl

end Sys2Proof.Machine
end

section
/-!
PROOF. Illegal command words (spec/30_encoding.md R70 (a); 46_foreground_commands.md R221). Such a word does not decode,
or it decodes to an operation with an operand outside its range, which the operation's own rule refuses.
-/

namespace Sys2Proof.Machine

open Sys2Proof

variable {j : Instr} {w : Word16} {d : DecodeError} {rest : List Code} {s : State}

/-! ## The fields of a word as numbers -/

theorem wordOf_toNat (unit op : BitVec 4) (x : Byte) :
    (wordOf unit op x).toNat = 4096 * unit.toNat + 256 * op.toNat + x.toNat := by
  rw [wordOf, BitVec.toNat_append, BitVec.toNat_append, ← Nat.shiftLeft_add_eq_or_of_lt x.isLt,
    ← Nat.shiftLeft_add_eq_or_of_lt op.isLt, Nat.shiftLeft_eq, Nat.shiftLeft_eq]
  omega

section Fields

variable (unit op : BitVec 4) (x : Byte)

@[simp] theorem wordOf_toNat_unit : (wordOf unit op x).toNat / 4096 = unit.toNat := by
  rw [wordOf_toNat]; omega

@[simp] theorem wordOf_toNat_op : (wordOf unit op x).toNat / 256 % 16 = op.toNat := by
  rw [wordOf_toNat]; omega

@[simp] theorem wordOf_toNat_operand : (wordOf unit op x).toNat % 256 = x.toNat := by
  rw [wordOf_toNat]; omega

end Fields

/-! ## Operands out of range -/

section Operands

variable {unit op : BitVec 4} {x : Byte} {i : Inst} {m : BitVec 2}

theorem not_legalLine (hop : op.toNat ≤ 2) (h : illegalCommand (wordOf 0 op x) = true) :
    legalLine x.toNat = false := by
  simpa [illegalCommand, legalLine, hop] using h

theorem not_legalMode (h : illegalCommand (wordOf 2 0 ((0 : BitVec 5) ++ m ++ i.code)) = true) :
    legalMode m = false := by
  cases i <;> decide +revert

theorem not_legalRole (hunit : unit = 3 ∨ unit = 4) (h : illegalCommand (wordOf unit 0 x) = true) :
    legalRole x = false := by
  rcases hunit with rfl | rfl <;> simpa [illegalCommand, legalRole, ← BitVec.toNat_inj] using h

theorem not_legalCfgIndex_write (h : illegalCommand (wordOf 5 op x) = true) : legalCfgIndex op = false := by
  simpa [illegalCommand, legalCfgIndex] using h

theorem not_legalCfgIndex_read (h : illegalCommand (wordOf 6 op 0) = true) : legalCfgIndex op = false := by
  simpa [illegalCommand, legalCfgIndex] using h

theorem not_illegalCommand_tmrArm (x : Byte) : illegalCommand (wordOf 1 0 x) = false := by
  simp [illegalCommand]

theorem not_illegalCommand_put (hunit : unit = 3 ∨ unit = 4) (x : Byte) :
    illegalCommand (wordOf unit 1 x) = false := by
  rcases hunit with rfl | rfl <;> simp [illegalCommand]

end Operands

/-- An illegal word that is the word of an operation has an operand outside its range (R70 (a)). -/
theorem not_wellFormed_of_illegalCommand (hj : encode j = .command w) (hw : illegalCommand w = true) :
    WellFormed j = false := by
  cases j <;> cases hj
  case lineAssert l => exact not_legalLine (op := 0) (by decide) hw
  case lineRelease l => exact not_legalLine (op := 1) (by decide) hw
  case lineRead l => exact not_legalLine (op := 2) (by decide) hw
  case tmrArm d => cases (not_illegalCommand_tmrArm d).symm.trans hw
  case edgeSet i m => exact not_legalMode hw
  case edgeStatus i => cases i <;> cases hw
  case pInit rr => exact not_legalRole (.inl rfl) hw
  case xInit rr => exact not_legalRole (.inr rfl) hw
  case pPut b => cases (not_illegalCommand_put (.inl rfl) b).symm.trans hw
  case xPut b => cases (not_illegalCommand_put (.inr rfl) b).symm.trans hw
  case cfgWr r v =>
    have hr : legalCfgIndex r = false := not_legalCfgIndex_write hw
    simp [WellFormed, hr]
  case cfgRd r => exact not_legalCfgIndex_read hw
  -- the command words without an operand are legal
  all_goals cases hw

/-- A command with an operand outside its range is refused by its own rule. -/
theorem exec_not_wellFormed (hj : encode j = .command w) (h : WellFormed j = false) (hd : deliverable s = none) :
    exec j s = .next (refuse s) := by
  cases j
  case lineAssert l | lineRelease l =>
    exact asStep_refuse hd (lineCommand_noLine (lineOfId_eq_none (by simpa [WellFormed, legalLine] using h)))
  case lineRead l =>
    exact asStep_refuse hd (lineReadCommand_noLine (lineOfId_eq_none (by simpa [WellFormed, legalLine] using h)))
  case tmrArm d => exact asStep_refuse hd (tmrArmCommand_refused (.inl (by simpa [WellFormed, legalDelay] using h)))
  case edgeSet i m =>
    obtain rfl : m = 3 := by simpa [WellFormed, legalMode] using h
    exact asStep_refuse hd (edgeSetCommand_reserved i s)
  case pInit rr | xInit rr =>
    exact asStep_refuse hd (initCommand_refused (.inl (by simpa [WellFormed, legalRole] using h)))
  case cfgWr r v =>
    have hvalue : r.toNat ≤ 12 → r.toNat ≤ 10 ∧ v = 0 := by
      simpa [WellFormed, legalCfgIndex, legalCfgValue] using h
    rcases Nat.lt_or_ge 12 r.toNat with hr | hr
    · exact asStep_refuse hd (cfgWrCommand_noRegister (cfgOfIndex_eq_none hr))
    · obtain ⟨hreg, rfl⟩ := hvalue hr
      exact asStep_refuse hd (cfgWrCommand_reserved hreg)
  case cfgRd r =>
    exact asStep_refuse hd (cfgRdCommand_noRegister (cfgOfIndex_eq_none (by simpa [WellFormed, legalCfgIndex] using h)))
  case envLow | envRel => cases hj
  all_goals cases h

theorem step_command_ok (hd : deliverable s = none) (hs : s.script = .command w :: rest)
    (hw : decodeCommand w = .ok j) : step s = exec j { s with script := rest } := by
  simp [step, fetch, hd, hs, fetchCode, hw]

theorem step_command_error (hd : deliverable s = none) (hs : s.script = .command w :: rest)
    (hw : decodeCommand w = .error d) : step s = .next (refuse { s with script := rest }) := by
  have hquiet : detectEdges { s with script := rest } (refuse { s with script := rest }) =
      refuse { s with script := rest } := detectEdges_of_level _ _ fun _ => rfl
  simp [step, fetch, hd, hs, fetchCode, hw, hquiet]

/-- Settles O4: the word does not decode, or what it decodes to has an operand out of range. -/
theorem illegalCommandsRefused : Obligations.IllegalCommandsRefused := by
  intro w rest s hd hs hw
  cases hdec : decodeCommand w with
  | error d => exact step_command_error hd hs hdec
  | ok j =>
    have hj : encode j = .command w := encode_of_decodeCommand hdec
    rw [step_command_ok hd hs hdec]
    exact exec_not_wellFormed hj (not_wellFormed_of_illegalCommand hj hw) hd

end Sys2Proof.Machine
end

section
/-!
PROOF. What a step runs (spec/00_scope.md R6, 60_exceptions.md R247 to R250, R257 to R259): the dispatch of the
notification that comes first, else the word at the head of `script`, else a tick; and that a dispatch under the
invariant has a rule and leaves nothing deliverable.
-/

namespace Sys2Proof.Machine

open Sys2Proof

variable {j : Instr} {w : Code} {d : DecodeError} {rest : List Code} {s t before taken : State} {i : Inst} {e : Engine}
  {c : St} {v : Ev} {r : Row}

/-! ## The notification that comes first -/

theorem edgeDeliverable_iff :
    edgeDeliverable i s = true ↔ (s.inst i).edgePend = true ∧ (s.inst i).role ≠ .none := by
  simp [edgeDeliverable]

theorem tmrDeliverable_iff :
    tmrDeliverable s = true ↔ s.tmr.pend = true ∧ (s.tmr.owner = .P ∨ s.tmr.owner = .X) := by
  rw [← timerOwnedByEngine_iff]
  simp [tmrDeliverable, timerOwnedByEngine]

theorem step_of_edge (h : deliverable s = some (.edge i)) : step s = exec (.irqEdge i) s := by simp [step, fetch, h]

theorem step_of_timer (h : deliverable s = some .timer) : step s = exec .irqTmr s := by simp [step, fetch, h]

theorem step_of_idle (h : deliverable s = none) (hs : s.script = []) : step s = exec .envTick s := by
  simp [step, fetch, h, hs]

/-- Settles O6: R248's order is that of `deliverable`, its conditions those of R247. -/
theorem stepDispatchesByPriority : Obligations.StepDispatchesByPriority := by
  intro s edgeP edgeX timer
  have hp : edgeDeliverable .P s = true ↔ edgeP := edgeDeliverable_iff
  have hx : edgeDeliverable .X s = true ↔ edgeX := edgeDeliverable_iff
  have ht : tmrDeliverable s = true ↔ timer := tmrDeliverable_iff
  rw [← hp, ← hx, ← ht]
  refine ⟨fun hp => step_of_edge ?_, fun hp hx => step_of_edge ?_, fun hp hx ht => step_of_timer ?_,
    fun hp hx ht => step_of_idle ?_⟩ <;> simp [deliverable, *]

/-! ## The head of `script` -/

/-- A word that is no dispatch key runs what it decodes to (R65, R67, R60 to R62). -/
theorem step_of_decode (hd : deliverable s = none) (hs : s.script = w :: rest) (hk : ∀ k, w ≠ .key k)
    (hw : decode w = .ok j) : step s = exec j { s with script := rest } := by
  cases w with
  | command w => exact step_command_ok hd hs hw
  | event w => simp only [step, fetch, hd, hs, fetchCode, show decodeEvent w = .ok j from hw]
  | key k => exact absurd rfl (hk k)
  | frame f symbols half =>
    simp only [step, fetch, hd, hs, fetchCode, show decodeFrame f symbols half = .ok j from hw]

theorem step_key {k : Byte} (hd : deliverable s = none) (hs : s.script = .key k :: rest) :
    step s = .refused .notEnabled := by
  simp [step, fetch, hd, hs, fetchCode]

/-- The far end has no action for a word that decodes to nothing. -/
theorem step_of_decode_error (hd : deliverable s = none) (hs : s.script = w :: rest) (hk : ∀ k, w ≠ .key k)
    (hc : ∀ a, w ≠ .command a) (hw : decode w = .error d) : step s = .refused (.noSuchEvent d) := by
  cases w with
  | command w => exact absurd rfl (hc w)
  | event w => simp only [step, fetch, hd, hs, fetchCode, show decodeEvent w = .error d from hw]
  | key k => exact absurd rfl (hk k)
  | frame f symbols half =>
    simp only [step, fetch, hd, hs, fetchCode, show decodeFrame f symbols half = .error d from hw]

/-- No line has an id above 6 (R80). -/
theorem farEnd_noLine {l : BitVec 4} (h : 6 < l.toNat) (x : Drive) (s : State) :
    farEnd l x s = .refused .noSuchLine := by
  simp [farEnd, lineOfId_eq_none h]

/-- Settles O5: each clause is the fetch of one kind of word. -/
theorem stepRunsDecoded : Obligations.StepRunsDecoded := by
  intro w rest s hd hs
  refine ⟨fun j hk hw => step_of_decode hd hs hk hw, ?_, fun d hk hc hw => step_of_decode_error hd hs hk hc hw, ?_⟩
  · rintro k rfl
    exact step_key hd hs
  · intro l hl hw
    have hk : ∀ k, w ≠ .key k := by
      rintro k rfl
      rcases hw with hw | hw <;> cases encodeOfDecode _ _ hw
    rcases hw with hw | hw
    · exact (step_of_decode hd hs hk hw).trans (farEnd_noLine hl .low _)
    · exact (step_of_decode hd hs hk hw).trans (farEnd_noLine hl .rel _)

/-! ## Handlers -/

/-- A handler whose key has a rule runs it to completion and ends with R99 (R249, R250). -/
theorem runHandler_rule (he : engineOf i (taken.inst i).role = some e)
    (hj : transitionOf e (taken.inst i).st v = some j) :
    ∃ u, exec j taken = .next u ∧ runHandler i v before taken = .next (detectEdges before u) := by
  obtain ⟨body, hexec, -⟩ := exists_rule hj
  have hi := engineInst_of_engineOf he
  have hu : exec j taken = .next (body taken) := by
    rw [hexec, transition_enabled taken body (by rw [hi]) (by rw [hi])]
  exact ⟨_, hu, by simp [runHandler, selectTransition_eq taken i v he, hj, runTransition_eq_exec hj, hu]⟩

/-- A handler whose key has no rule is the fault of R259. -/
theorem runHandler_noRule (he : engineOf i (taken.inst i).role = some e)
    (hj : transitionOf e (taken.inst i).st v = none) :
    runHandler i v before taken = .fault (.spuriousDispatch i (taken.inst i).st v) := by
  simp [runHandler, selectTransition_eq taken i v he, hj]

theorem exec_irqEdge (h : deliverable s = some (.edge i)) :
    exec (.irqEdge i) s = runHandler i .edge s (takeEdge i s) := if_pos h

theorem exec_irqTmr (h : deliverable s = some .timer) (ho : s.tmr.owner = ownerOf i) :
    exec .irqTmr s = runHandler i .tmr s (takeTimer s) :=
  (if_pos h).trans (by rw [ho, ownerInst_ownerOf])

/-- The taking of an edge leaves the role and the state that select the rule. -/
theorem takeEdge_role_st :
    ((takeEdge i s).inst i).role = (s.inst i).role ∧ ((takeEdge i s).inst i).st = (s.inst i).st := by
  simp

/-- Settles O7: a dispatch is a handler step, with a rule or without one. -/
theorem notificationsRunTheirTransition : Obligations.NotificationsRunTheirTransition := by
  intro i s
  obtain ⟨hrole, hst⟩ := takeEdge_role_st (i := i) (s := s)
  refine ⟨fun hd e he => ?_, fun hd ho e he => ?_, fun hd => if_neg hd, fun hd => if_neg hd⟩
  · rw [exec_irqEdge hd]
    rw [← hrole] at he
    rw [← hst]
    exact ⟨fun j hj => runHandler_rule he hj, runHandler_noRule he⟩
  · rw [exec_irqTmr hd ho]
    rw [← takeTimer_inst s i] at he ⊢
    exact ⟨fun j hj => runHandler_rule he hj, runHandler_noRule he⟩

/-- A deliverable expiry is some instance's (R247). -/
theorem exists_owner_of_timer (h : deliverable s = some .timer) : ∃ i, s.tmr.owner = ownerOf i := by
  obtain ⟨-, ho | ho⟩ := tmrDeliverable_iff.mp (deliverable_timer s h)
  · exact ⟨.P, ho⟩
  · exact ⟨.X, ho⟩

theorem exists_takes (h : deliverable s ≠ none) : ∃ i v taken, Takes s i v taken := by
  obtain ⟨n, hn⟩ := Option.ne_none_iff_exists'.mp h
  cases n with
  | edge i => exact ⟨i, .edge, _, .edge hn⟩
  | timer =>
    obtain ⟨i, ho⟩ := exists_owner_of_timer hn
    exact ⟨i, .tmr, _, .timer hn ho⟩

/-- While a notification is deliverable the step is its handler (R248, R249). -/
theorem Takes.step_eq (h : Takes s i v taken) : step s = runHandler i v s taken := by
  cases h with
  | edge h => exact (step_of_edge h).trans (exec_irqEdge h)
  | timer h ho => exact (step_of_timer h).trans (exec_irqTmr h ho)

/-! ## A handler leaves nothing deliverable -/

/-- A rule neither leaves its own edge pending nor lets its timer expire, R99 sees nothing after it, and nothing was
pending for the other instance (R28 (e)). -/
theorem Takes.deliverable_none {body : State → State} (h : Takes s i v taken) (hs : BlockInv s)
    (he : engineOf i (taken.inst i).role = some e) (hb : IsRule e (taken.inst i).st v body) :
    deliverable (detectEdges s (body taken)) = none := by
  obtain ⟨hd, -, -, hlev⟩ := h.ready hs
  obtain ⟨-, -, hdt⟩ := (deliverable_none_iff taken).mp hd
  have hf := hb.touches taken
  have hland := hb.lands False taken
  rw [engineInst_of_engineOf he] at hf hland
  have hland := hland (h.stands hs nofun he)
  have hpend := hf.pend (edgePend_of_not_deliverable (role_ne_none he) (edgeDeliverable_of_none hd i))
  rw [hf.detectEdges hland fun k => (hlev (clkOf k)).symm]
  obtain ⟨r, hr⟩ := hland
  refine deliverable_none_of_inst i (by simp [edgeDeliverable, hpend]) ?_ (hr.tmrDeliverable hdt)
  have hother := edgeDeliverable_of_none hd (otherInst i)
  unfold edgeDeliverable at *
  rwa [hf.other]

/-- Settles O54: the step is a handler, and a handler that completes ran a rule. -/
theorem handlerRaisesNothing : Obligations.HandlerRaisesNothing := by
  intro s t hs hd h
  obtain ⟨i, v, taken, ht⟩ := exists_takes hd
  rw [ht.step_eq] at h
  obtain ⟨e, body, he, hb, rfl⟩ := runHandler_next h
  exact ht.deliverable_none hs he hb

/-! ## Under the invariant a dispatch has a rule -/

/-- A state whose detector is selected has a rule for the edge (R130, R164, R187, R201). -/
theorem exists_edge_rule (hr : rowOf e c = some r) (hm : r.mode ≠ .off) : ∃ j, transitionOf e c .edge = some j := by
  cases e <;> cases c <;> cases hr <;> simp_all [transitionOf]

/-- A state that waits for the timer has a rule for the expiry (R130, R164, R187, R201). -/
theorem exists_tmr_rule (hr : rowOf e c = some r) (hk : r.timer ≠ none) : ∃ j, transitionOf e c .tmr = some j := by
  cases e <;> cases c <;> cases hr <;> simp_all [transitionOf]

/-- Under the invariant what is dispatched has an engine and a rule (R259): an edge is pending only where the detector
is selected, and an expiry only where the row waits for it. -/
theorem Takes.exists_rule (h : Takes s i v taken) (hs : BlockInv s) :
    ∃ e j, engineOf i (taken.inst i).role = some e ∧ transitionOf e (taken.inst i).st v = some j := by
  have hi := hs.inst i
  cases h with
  | edge h =>
    obtain ⟨hrole, hst⟩ := takeEdge_role_st (i := i) (s := s)
    obtain ⟨hpend, hn⟩ := edgeDeliverable_iff.mp (deliverable_edge s h)
    obtain ⟨e, he⟩ := exists_engineOf i hn
    obtain ⟨⟨r, hr, hf, -⟩, hmode⟩ := (instInv_of_engine he).mp hi
    obtain ⟨j, hj⟩ := exists_edge_rule hr (hf.mode ▸ hmode hpend)
    exact ⟨e, j, hrole ▸ he, hst ▸ hj⟩
  | timer h ho =>
    rw [takeTimer_inst]
    have hn : (s.inst i).role ≠ .none := by
      intro hn
      obtain ⟨-, -, hown, -⟩ := (instInv_of_role_none hn).mp hi
      exact hown ho
    obtain ⟨e, he⟩ := exists_engineOf i hn
    obtain ⟨⟨r, hr, -, hun, -⟩, -⟩ := (instInv_of_engine he).mp hi
    obtain ⟨j, hj⟩ := exists_tmr_rule hr fun hk => hun hk ho
    exact ⟨e, j, he, hj⟩

/-- Under the invariant a handler step completes. -/
theorem step_handler (hs : BlockInv s) (hd : deliverable s ≠ none) : ∃ t, step s = .next t := by
  obtain ⟨i, v, taken, ht⟩ := exists_takes hd
  obtain ⟨e, j, he, hj⟩ := ht.exists_rule hs
  obtain ⟨u, -, hu⟩ := runHandler_rule (before := s) he hj
  exact ⟨_, ht.step_eq.trans hu⟩

end Sys2Proof.Machine
end

section
/-!
PROOF. A tick in a quiescent state (spec/70_reset_and_hazards.md R285): only a countdown of the foreground is under way.
-/

namespace Sys2Proof.Machine

open Sys2Proof

variable {s : State} {τ : Timer}

theorem tickTimer_stopped (h : τ.run = false) : tickTimer τ = τ := by simp [tickTimer, h]

/-- In a quiescent state the timer stands still or counts for the foreground. -/
theorem tickTimer_of_quiescent (hrun : ¬(τ.run = true ∧ (ownerInst τ.owner).isSome = true)) (ht : TimerInv τ)
    (ho : τ.owner ≠ .FG) : tickTimer τ = τ := by
  obtain ⟨hown, -⟩ := ht
  refine tickTimer_stopped ?_
  by_contra h
  have h : τ.run = true := by simpa using h
  have hsome : (ownerInst τ.owner).isSome = true := by
    cases howner : τ.owner with
    | none => exact absurd howner (hown.mpr (.inl h))
    | P | X => rfl
    | FG => exact absurd howner ho
  exact hrun ⟨h, hsome⟩

/-- The expiry of a countdown of the foreground is no notification (R247). -/
theorem tmrDeliverable_of_FG (h : s.tmr.owner = .FG) : tmrDeliverable s = false := by
  simp [tmrDeliverable, h, ownerInst]

/-- Settles O59: the tick moves no line, and the timer only if the foreground owns it. -/
theorem quiescentTicks : Obligations.QuiescentTicks := by
  intro s hs ht
  obtain ⟨hp, hx, hd, hrun⟩ := hs
  have htick : exec .envTick s = .next (tick s) := asStep_quiet s tick hd rfl fun _ => by rw [tick_eq]; rfl
  rw [tick_eq] at htick
  by_cases ho : s.tmr.owner = .FG
  case pos =>
    obtain ⟨hdp, hdx, -⟩ := (deliverable_none_iff s).mp hd
    have ho' : (tickTimer s.tmr).owner = .FG := (tickTimer_owner _).trans ho
    refine ⟨_, htick, ⟨hp, hx, ?_, ?_⟩, rfl, absurd ho⟩
    · exact (deliverable_none_iff _).mpr ⟨hdp, hdx, tmrDeliverable_of_FG ho'⟩
    · simp [ho', ownerInst]
  case neg =>
    have hsame : tickTimer s.tmr = s.tmr := tickTimer_of_quiescent hrun ht ho
    rw [hsame] at htick
    exact ⟨_, htick, ⟨hp, hx, hd, hrun⟩, rfl, fun _ => rfl⟩

end Sys2Proof.Machine
end

section
/-!
PROOF. The fields no rule reads (spec/60_exceptions.md R240, R255; 10_state.md R26, R27): the ghost trace, `now` and
`script`. One equation per operation, which moves the change of these fields from before the operation to after it,
with the events the operation raises put behind the trace; so a rule's equation is the list of its operations.
-/

namespace Sys2Proof.Machine

open Sys2Proof

/-- The state with another ghost trace, another time and another `script`. -/
def State.aside (s : State) (es : List ErrorEvent) (n : Nat) (cs : List Code) : State :=
  { s with events := es, now := n, script := cs }

/-- The event of a `push` on a full queue (R44). -/
def overflows (i : Inst) (d : Dir) (s : State) : List ErrorEvent :=
  if ((s.inst i).queue d).full s.slots then [.overflow i d] else []

theorem overflows_length_le (i : Inst) (d : Dir) (s : State) : (overflows i d s).length ≤ 1 := by
  unfold overflows
  split <;> simp

variable (s : State) (es : List ErrorEvent) (n : Nat) (cs : List Code)

/-! ## What is read -/

section Reads

variable (i : Inst) (l : Line)

@[simp] theorem aside_p : (s.aside es n cs).p = s.p := rfl
@[simp] theorem aside_x : (s.aside es n cs).x = s.x := rfl
@[simp] theorem aside_inst : (s.aside es n cs).inst i = s.inst i := by cases i <;> rfl
@[simp] theorem aside_slots : (s.aside es n cs).slots = s.slots := rfl
@[simp] theorem aside_ackSeen : (s.aside es n cs).ackSeen = s.ackSeen := rfl
@[simp] theorem aside_tmr : (s.aside es n cs).tmr = s.tmr := rfl
@[simp] theorem aside_cfg : (s.aside es n cs).cfg = s.cfg := rfl
@[simp] theorem aside_script : (s.aside es n cs).script = cs := rfl
@[simp] theorem level_aside : level l (s.aside es n cs) = level l s := rfl
@[simp] theorem parityBit_aside : parityBit i (s.aside es n cs) = parityBit i s := by simp [parityBit]
@[simp] theorem deliverable_aside : deliverable (s.aside es n cs) = deliverable s := rfl

theorem aside_self : s.aside s.events s.now s.script = s := rfl

end Reads

/-! ## The operations of the rules -/

/-- A branch whose condition does not read these fields. -/
theorem ite_eq_aside {s es n cs} {p : Prop} [Decidable p] {t s' t' : State} (hs : s' = s.aside es n cs)
    (ht : t' = t.aside es n cs) : (if p then s' else t') = (if p then s else t).aside es n cs := by
  rw [hs, ht]
  split <;> rfl

section Operations

variable (i : Inst) (l : Line) (x : Drive) (d : Dir) (a : Byte) (b : Bool) (c : Owner)

@[simp] theorem modInst_aside (f : InstState → InstState) :
    (s.aside es n cs).modInst i f = (s.modInst i f).aside es n cs := by cases i <;> rfl
@[simp] theorem setAckSeen_aside : setAckSeen b (s.aside es n cs) = (setAckSeen b s).aside es n cs := rfl
@[simp] theorem setOwn_aside : setOwn l x (s.aside es n cs) = (setOwn l x s).aside es n cs := rfl
@[simp] theorem arm_aside : arm c a (s.aside es n cs) = (arm c a s).aside es n cs := rfl
@[simp] theorem stopTimer_aside : stopTimer (s.aside es n cs) = (stopTimer s).aside es n cs := rfl
@[simp] theorem answer_aside : answer a (s.aside es n cs) = (answer a s).aside es n cs := rfl
@[simp] theorem refuse_aside : refuse (s.aside es n cs) = (refuse s).aside es n cs := rfl
@[simp] theorem takeTimer_aside : takeTimer (s.aside es n cs) = (takeTimer s).aside es n cs := rfl
@[simp] theorem tmrOff_aside : tmrOff c (s.aside es n cs) = (tmrOff c s).aside es n cs :=
  ite_eq_aside rfl rfl

@[simp] theorem putBit_aside : putBit i (s.aside es n cs) = (putBit i s).aside es n cs := by
  rw [putBit_eq, putBit_eq, aside_inst, setOwn_aside, modInst_aside]

@[simp] theorem getBit_aside : getBit i (s.aside es n cs) = (getBit i s).aside es n cs := by
  rw [getBit_eq, getBit_eq, level_aside, modInst_aside]

/-- `raise e` (R240) puts its event behind whatever trace there is. -/
@[simp] theorem raise_aside (e : ErrorEvent) : raise e (s.aside es n cs) = (raise e s).aside (es ++ [e]) n cs := rfl

@[simp] theorem push_aside : push i d a (s.aside es n cs) = (push i d a s).aside (es ++ overflows i d s) n cs := by
  cases h : ((s.inst i).queue d).full s.slots
  · rw [push_room s i d a h, push_room _ i d a (by simpa using h)]
    simp [overflows, h]
  · rw [push_full s i d a h, push_full _ i d a (by simpa using h)]
    simp [overflows, h]

@[simp] theorem overflows_setOwn : overflows i d (setOwn l x s) = overflows i d s := by simp [overflows]

/-- R99 compares CLOCK levels. -/
theorem detectEdges_aside (before : State) (es' : List ErrorEvent) (n' : Nat) (cs' : List Code) :
    detectEdges (before.aside es n cs) (s.aside es' n' cs') = (detectEdges before s).aside es' n' cs' := by
  rw [detectEdges_eq, detectEdges_eq]
  rfl

end Operations

/-! ## PS/2 device -/

@[simp] theorem p2dTick_aside (c : St) : p2dTick c (s.aside es n cs) = (p2dTick c s).aside es n cs := rfl
@[simp] theorem p2dRise_aside (c : St) : p2dRise c (s.aside es n cs) = (p2dRise c s).aside es n cs := rfl
@[simp] theorem p2dStartSend_aside : p2dStartSend (s.aside es n cs) = (p2dStartSend s).aside es n cs := rfl
@[simp] theorem p2dStartReceive_aside : p2dStartReceive (s.aside es n cs) = (p2dStartReceive s).aside es n cs := rfl

@[simp] theorem p2dCheckBus_aside : p2dCheckBus (s.aside es n cs) = (p2dCheckBus s).aside es n cs :=
  ite_eq_aside (by simp) (ite_eq_aside rfl (ite_eq_aside rfl (by simp)))

theorem p2dAbort_aside : p2dAbort (s.aside es n cs) = (p2dAbort s).aside (es ++ [.abort s.p.st]) n cs := by
  simp [p2dAbort]

theorem p2dPrepBitTmr_aside : p2dPrepBitTmr (s.aside es n cs) = (p2dPrepBitTmr s).aside es n cs := by
  simp [p2dPrepBitTmr]

theorem p2dPrepParityTmr_aside : p2dPrepParityTmr (s.aside es n cs) = (p2dPrepParityTmr s).aside es n cs := by
  simp [p2dPrepParityTmr]

theorem p2dHoldoffTmr_aside : p2dHoldoffTmr (s.aside es n cs) = (p2dHoldoffTmr s).aside es n cs :=
  ite_eq_aside
    ((congrArg (armCfg .P .ps2HalfCycleUs)
      (ite_eq_aside (s := setAckSeen true (releaseLine .ps2Clk s)) (t := releaseLine .ps2Clk s) rfl rfl)).trans rfl)
    (ite_eq_aside (by simp) rfl)

theorem p2dGetAckTmr_aside :
    p2dGetAckTmr (s.aside es n cs) = (p2dGetAckTmr s).aside (es ++ overflows .P .rx s) n cs := by
  simp [p2dGetAckTmr]

/-! ## PS/2 host -/

@[simp] theorem p2hArmTimeout_aside : p2hArmTimeout (s.aside es n cs) = (p2hArmTimeout s).aside es n cs := rfl
@[simp] theorem p2hStartSend_aside : p2hStartSend (s.aside es n cs) = (p2hStartSend s).aside es n cs := rfl

@[simp] theorem p2hCheckForData_aside : p2hCheckForData (s.aside es n cs) = (p2hCheckForData s).aside es n cs :=
  ite_eq_aside (by simp) rfl

theorem p2hTimeout_aside : p2hTimeout (s.aside es n cs) = (p2hTimeout s).aside (es ++ [.timeout s.p.st]) n cs := by
  simp [p2hTimeout]

theorem p2hGetBitEdge_aside : p2hGetBitEdge (s.aside es n cs) = (p2hGetBitEdge s).aside es n cs :=
  ite_eq_aside rfl rfl

theorem p2hWaitStopEdge_aside :
    p2hWaitStopEdge (s.aside es n cs) = (p2hWaitStopEdge s).aside (es ++ overflows .P .rx s) n cs := by
  simp [p2hWaitStopEdge]

theorem p2hSendBitEdge_aside : p2hSendBitEdge (s.aside es n cs) = (p2hSendBitEdge s).aside es n cs :=
  ite_eq_aside (by simp) (by simp)

/-- A missing acknowledge (R125, R244). -/
theorem p2hSendStopEdge_aside : p2hSendStopEdge (s.aside es n cs)
    = (p2hSendStopEdge s).aside (es ++ if level .ps2Data s then [.noAck] else []) n cs := by
  cases h : level .ps2Data s <;> simp [p2hSendStopEdge, h]

/-! ## XT host -/

@[simp] theorem xthIdle_aside : xthIdle (s.aside es n cs) = (xthIdle s).aside es n cs := by simp [xthIdle]

theorem xthGetBitTmr_aside :
    xthGetBitTmr (s.aside es n cs) = (xthGetBitTmr s).aside (es ++ [.timeout .getBit]) n cs := by
  simp [xthGetBitTmr]

theorem xthResetTmr_aside : xthResetTmr (s.aside es n cs) = (xthResetTmr s).aside es n cs :=
  ite_eq_aside (by simp) rfl

/-! ## XT device -/

@[simp] theorem xtdTick_aside (c : St) : xtdTick c (s.aside es n cs) = (xtdTick c s).aside es n cs := rfl
@[simp] theorem xtdInhibit_aside : xtdInhibit (s.aside es n cs) = (xtdInhibit s).aside es n cs := rfl
@[simp] theorem xtdStartSend_aside : xtdStartSend (s.aside es n cs) = (xtdStartSend s).aside es n cs := rfl
@[simp] theorem xtdNotReady_aside : xtdNotReady (s.aside es n cs) = (xtdNotReady s).aside es n cs := rfl

@[simp] theorem xtdCheckBus_aside : xtdCheckBus (s.aside es n cs) = (xtdCheckBus s).aside es n cs :=
  ite_eq_aside rfl (ite_eq_aside (ite_eq_aside rfl rfl) (by simp))

theorem xtdAbort_aside : xtdAbort (s.aside es n cs) = (xtdAbort s).aside (es ++ [.abort s.x.st]) n cs := by
  simp [xtdAbort]

theorem xtdPrepBitTmr_aside : xtdPrepBitTmr (s.aside es n cs) = (xtdPrepBitTmr s).aside es n cs :=
  ite_eq_aside (by simp) rfl

theorem xtdHoldoffTmr_aside : xtdHoldoffTmr (s.aside es n cs) = (xtdHoldoffTmr s).aside es n cs :=
  ite_eq_aside (by simp) rfl

end Sys2Proof.Machine
end

section
/-!
PROOF. No operation reads the ghost trace, `now` or `script`, and each only adds to them (spec/60_exceptions.md R255,
R256; 10_state.md R26, R27).
-/

namespace Sys2Proof.Machine

open Sys2Proof

/-! ## Rules with one event on some path -/

section Rules

variable (s : State) (es : List ErrorEvent) (n : Nat) (cs : List Code)

/-- A branch with other events on either side. -/
theorem ite_eq_aside_append {s es n cs} {p : Prop} [Decidable p] {t s' t' : State} {l m : List ErrorEvent}
    (hs : s' = s.aside (es ++ l) n cs) (ht : t' = t.aside (es ++ m) n cs) :
    (if p then s' else t') = (if p then s else t).aside (es ++ if p then l else m) n cs := by
  rw [hs, ht]
  split <;> rfl

theorem length_ite_le {p : Prop} [Decidable p] {l m : List ErrorEvent} (hl : l.length ≤ 1) (hm : m.length ≤ 1) :
    (if p then l else m).length ≤ 1 := by
  split
  · exact hl
  · exact hm

/-- The contention check (R143) adds the event of an abort. -/
theorem p2dUnlessContention_aside {body : State → State} (h : body (s.aside es n cs) = (body s).aside es n cs) :
    p2dUnlessContention body (s.aside es n cs) = (p2dUnlessContention body s).aside
      (es ++ if level .ps2Clk s = false then [.abort s.p.st] else []) n cs :=
  ite_eq_aside_append (p2dAbort_aside s es n cs) (by simpa using h)

theorem xthGetBitEdge_aside : xthGetBitEdge (s.aside es n cs) = (xthGetBitEdge s).aside
    (es ++ if (getBit .X s).x.bitcnt = 8 then overflows .X .rx (getBit .X s) else []) n cs :=
  ite_eq_aside_append (by simp) (by simp)

theorem xtdSendStartTmr_aside : xtdSendStartTmr (s.aside es n cs) = (xtdSendStartTmr s).aside
    (es ++ if level .xtClk s = false then [.abort s.x.st] else []) n cs :=
  ite_eq_aside_append (xtdAbort_aside s es n cs) (by simp)

theorem xtdSendBitTmr_aside : xtdSendBitTmr (s.aside es n cs) = (xtdSendBitTmr s).aside
    (es ++ if level .xtClk s = false then [.abort s.x.st] else []) n cs :=
  ite_eq_aside_append (xtdAbort_aside s es n cs) (by simp)

/-- The events of a reset request: without two slots the self-test code overflows the queue just cleared. -/
def resetRequestEvents (s : State) : List ErrorEvent :=
  overflows .X .tx (clear .X .rx (clear .X .tx s)) ++ [.resetRequest]

theorem resetRequestEvents_length_le (h : 2 ≤ s.slots) : (resetRequestEvents s).length ≤ 1 := by
  have hroom : ((clear .X .rx (clear .X .tx s)).x.txq).full s.slots = false := Queue.full_clear s.x.txq h
  simpa [resetRequestEvents, overflows] using hroom

@[simp] theorem xtdResetRequest_aside :
    xtdResetRequest (s.aside es n cs) = (xtdResetRequest s).aside (es ++ resetRequestEvents s) n cs := by
  simp [xtdResetRequest, resetRequestEvents]

/-- The events of one poll of an inhibit (R199). -/
def countInhibitEvents (s : State) : List ErrorEvent :=
  if s.x.hold < 255 then
    if s.x.hold + 1 = s.cfg.get .xtResetTicks then resetRequestEvents (setHold .X (s.x.hold + 1) s) else []
  else []

theorem countInhibitEvents_length_le (h : 2 ≤ s.slots) : (countInhibitEvents s).length ≤ 1 :=
  length_ite_le (length_ite_le (resetRequestEvents_length_le _ h) (by simp)) (by simp)

theorem xtdCountInhibit_aside :
    xtdCountInhibit (s.aside es n cs) = (xtdCountInhibit s).aside (es ++ countInhibitEvents s) n cs :=
  ite_eq_aside_append (ite_eq_aside_append (xtdResetRequest_aside (setHold .X (s.x.hold + 1) s) es n cs) (by simp))
    (by simp)

theorem xtdHostInhibitTmr_aside : xtdHostInhibitTmr (s.aside es n cs) = (xtdHostInhibitTmr s).aside
    (es ++ if level .xtClk s = false then countInhibitEvents s else []) n cs :=
  ite_eq_aside_append (congrArg (armCfg .X .xtHalfCycleUs) (xtdCountInhibit_aside s es n cs)) (by simp)

end Rules

/-! ## Commands and events -/

section Commands

variable (s : State) (es : List ErrorEvent) (n : Nat) (cs : List Code) (i : Inst)

theorem lineCommand_aside (b : Byte) (d : Drive) {act : Line → State → State}
    (hact : ∀ l s, act l s = setOwn l d s) :
    lineCommand b act (s.aside es n cs) = (lineCommand b act s).aside es n cs := by
  unfold lineCommand
  cases lineOfId b.toNat with
  | none => rfl
  | some l => exact ite_eq_aside rfl (by simp [hact])

theorem lineReadCommand_aside (b : Byte) :
    lineReadCommand b (s.aside es n cs) = (lineReadCommand b s).aside es n cs := by
  unfold lineReadCommand
  cases lineOfId b.toNat <;> rfl

theorem tmrArmCommand_aside (d : Byte) : tmrArmCommand d (s.aside es n cs) = (tmrArmCommand d s).aside es n cs :=
  ite_eq_aside rfl (ite_eq_aside rfl rfl)

theorem tmrDisableCommand_aside : tmrDisableCommand (s.aside es n cs) = (tmrDisableCommand s).aside es n cs :=
  ite_eq_aside rfl rfl

theorem edgeSetCommand_aside (m : BitVec 2) :
    edgeSetCommand i m (s.aside es n cs) = (edgeSetCommand i m s).aside es n cs := by
  unfold edgeSetCommand
  cases modeOfOperand m with
  | none => rfl
  | some m => exact ite_eq_aside (by simp) rfl

@[simp] theorem idleEntry_aside : idleEntry i (s.aside es n cs) = (idleEntry i s).aside es n cs := by
  unfold idleEntry
  rw [aside_inst]
  cases engineOf i (s.inst i).role with
  | none => rfl
  | some e =>
    cases e
    · exact p2hCheckForData_aside s es n cs
    · exact p2dCheckBus_aside s es n cs
    · exact xthIdle_aside s es n cs
    · exact xtdCheckBus_aside s es n cs

@[simp] theorem reinit_aside : reinit i (s.aside es n cs) = (reinit i s).aside es n cs := by
  have hcleared : cleared i (s.aside es n cs) = (cleared i s).aside es n cs := by cases i <;> simp [cleared]
  rw [reinit_eq, reinit_eq, hcleared, idleEntry_aside]

theorem initCommand_aside (rr : Byte) : initCommand i rr (s.aside es n cs) = (initCommand i rr s).aside es n cs := by
  unfold initCommand
  cases roleOfOperand rr with
  | none => rfl
  | some r => exact ite_eq_aside (by simp) rfl

theorem resetCommand_aside : resetCommand i (s.aside es n cs) = (resetCommand i s).aside es n cs :=
  ite_eq_aside rfl (by simp)

/-- A PUT pushes only on a queue with room (R212), so it raises nothing. -/
theorem putCommand_aside (b : Byte) : putCommand i b (s.aside es n cs) = (putCommand i b s).aside es n cs := by
  refine ite_eq_aside rfl (ite_eq_aside rfl ?_)
  by_cases hfull : (s.inst i).txq.full s.slots = true
  case pos => simp [hfull]
  case neg =>
    have hpush : push i .tx b (s.aside es n cs) = (push i .tx b s).aside es n cs := by simp [overflows, hfull]
    rw [hpush]
    refine ite_eq_aside rfl ?_
    exact congrArg (answer 0) (ite_eq_aside (idleEntry_aside (push i .tx b s) es n cs i) rfl)

theorem getCommand_aside : getCommand i (s.aside es n cs) = (getCommand i s).aside es n cs :=
  ite_eq_aside rfl (ite_eq_aside rfl (ite_eq_aside rfl (by simp)))

theorem hresetCommand_aside : hresetCommand (s.aside es n cs) = (hresetCommand s).aside es n cs :=
  ite_eq_aside rfl rfl

theorem cfgWrCommand_aside (r : BitVec 4) (b : Byte) :
    cfgWrCommand r b (s.aside es n cs) = (cfgWrCommand r b s).aside es n cs := by
  unfold cfgWrCommand
  cases cfgOfIndex r with
  | none => rfl
  | some k => exact ite_eq_aside rfl rfl

theorem cfgRdCommand_aside (r : BitVec 4) : cfgRdCommand r (s.aside es n cs) = (cfgRdCommand r s).aside es n cs := by
  unfold cfgRdCommand
  cases cfgOfIndex r <;> rfl

theorem tick_aside : tick (s.aside es n cs) = (tick s).aside es (n + 1) cs := by
  rw [tick_eq, tick_eq]
  rfl

end Commands

/-! ## The words a frame is played with can be issued -/

section Played

variable (l : Line) (v : Byte) (h k : Nat)

theorem all_inputOk_envLow : (envLow l).all inputOk = true := by cases l <;> decide

theorem all_inputOk_envRel : (envRel l).all inputOk = true := by cases l <;> decide

theorem all_inputOk_envSet (b : Bool) : (envSet l b).all inputOk = true := by
  cases b
  · exact all_inputOk_envLow l
  · exact all_inputOk_envRel l

theorem all_inputOk_envWait : (envWait k).all inputOk = true := by
  have htick : inputOk (encode .envTick) = true := rfl
  simp [envWait, htick]

theorem all_inputOk_envPs2D2h : (envPs2D2h v h).all inputOk = true := by
  simp [envPs2D2h, envPs2Symbol, all_inputOk_envLow, all_inputOk_envRel, all_inputOk_envSet, all_inputOk_envWait,
    dataSymbols, List.all_append, -List.all_eq_true]

theorem all_inputOk_envPs2H2d : (envPs2H2d v k h).all inputOk = true := by
  simp [envPs2H2d, all_inputOk_envLow, all_inputOk_envRel, all_inputOk_envSet, all_inputOk_envWait,
    dataSymbols, List.all_append, -List.all_eq_true]

theorem all_inputOk_envXtD2h : (envXtD2h v h).all inputOk = true := by
  simp [envXtD2h, envXtPulse, all_inputOk_envLow, all_inputOk_envRel, all_inputOk_envSet, all_inputOk_envWait,
    dataSymbols, List.all_append, -List.all_eq_true]

end Played

/-! ## Operations that only add to these fields -/

/-- In `s` the effects `f` read none of these fields and only add to them: events behind the trace, given two slots at
most one, time to `now`, and in front of `script` words that can be issued. -/
def Adds (f : State → State) (s : State) : Prop :=
  ∃ (l : List ErrorEvent) (k : Nat) (played : List Code),
    (2 ≤ s.slots → l.length ≤ 1) ∧ played.all inputOk = true ∧
    ∀ es n cs, f (s.aside es n cs) = (f s).aside (es ++ l) (n + k) (played ++ cs)

/-- In `s` the operation `f` has the same outcome whatever these fields hold, and only adds to them. It faults only
while a notification is deliverable (R259). -/
inductive Blind (f : State → Result) (s : State) : Prop
  | next {t : State} {l : List ErrorEvent} {k : Nat} {played : List Code} (hl : 2 ≤ s.slots → l.length ≤ 1)
      (hp : played.all inputOk = true)
      (h : ∀ es n cs, f (s.aside es n cs) = .next (t.aside (es ++ l) (n + k) (played ++ cs)))
  | fault {r : Fault} (hd : deliverable s ≠ none) (h : ∀ es n cs, f (s.aside es n cs) = .fault r)
  | refused {r : Refusal} (h : ∀ es n cs, f (s.aside es n cs) = .refused r)

section Combinators

variable {s : State} {f : State → State} {i : Inst} {r : Role} {c : St} {v : Ev} {j : Instr}

theorem adds_events {l : List ErrorEvent} (hl : 2 ≤ s.slots → l.length ≤ 1)
    (h : ∀ es n cs, f (s.aside es n cs) = (f s).aside (es ++ l) n cs) : Adds f s := ⟨l, 0, [], hl, rfl, h⟩

theorem adds_nothing (h : ∀ es n cs, f (s.aside es n cs) = (f s).aside es n cs) : Adds f s :=
  adds_events (l := []) (by simp) (by simpa using h)

theorem adds_play {codes : List Code} (h : codes.all inputOk = true) : Adds (play codes) s :=
  ⟨[], 0, codes, by simp, h, fun es n cs => by rw [List.append_nil]; rfl⟩

theorem adds_tick : Adds tick s :=
  ⟨[], 1, [], by simp, rfl, fun es n cs => by rw [List.append_nil, tick_aside]; rfl⟩

theorem Blind.congr {f g : State → Result} (hg : Blind g s)
    (h : ∀ es n cs, f (s.aside es n cs) = g (s.aside es n cs)) :
    Blind f s := by
  cases hg with
  | next hl hp hg => exact .next hl hp fun es n cs => (h es n cs).trans (hg es n cs)
  | fault hd hg => exact .fault hd fun es n cs => (h es n cs).trans (hg es n cs)
  | refused hg => exact .refused fun es n cs => (h es n cs).trans (hg es n cs)

theorem blind_asStep (h : Adds f s) : Blind (asStep f) s := by
  obtain ⟨l, k, played, hl, hp, h⟩ := h
  by_cases hd : deliverable s = none
  · refine .next (t := detectEdges s (f s)) (k := k) hl hp fun es n cs => ?_
    rw [asStep_enabled (s.aside es n cs) f hd, h, detectEdges_aside]
  · exact .refused fun es n cs => asStep_disabled _ f hd

theorem blind_transition (h : Adds f s) : Blind (transition i r c f) s := by
  obtain ⟨l, k, played, hl, hp, h⟩ := h
  by_cases hrc : (s.inst i).role = r ∧ (s.inst i).st = c
  · refine .next (t := f s) (k := k) hl hp fun es n cs => ?_
    rw [transition_enabled _ f (by simpa using hrc.1) (by simpa using hrc.2), h]
  · exact .refused fun es n cs => transition_disabled _ f (by simpa using hrc)

theorem blind_farEnd (l : BitVec 4) (d : Drive) : Blind (farEnd l d) s := by
  cases hl : lineOfId l.toNat with
  | none => exact .refused fun es n cs => by simp [farEnd, hl]; rfl
  | some m => exact (blind_asStep (adds_nothing fun _ _ _ => rfl)).congr fun es n cs => farEnd_of_lineOfId hl d _

/-- A handler step is as blind as the transition it runs. -/
theorem blind_runHandler {take : State → State} (hd : deliverable s ≠ none)
    (htake : ∀ es n cs, take (s.aside es n cs) = (take s).aside es n cs) (hslots : (take s).slots = s.slots)
    (hexec : ∀ e c j, transitionOf e c v = some j → Blind (exec j) (take s)) :
    Blind (fun s => runHandler i v s (take s)) s := by
  have hsel : ∀ es n cs, selectTransition i v ((take s).aside es n cs) = selectTransition i v (take s) :=
    fun es n cs => by simp [selectTransition]
  cases hj : selectTransition i v (take s) with
  | none =>
    refine .fault (r := .spuriousDispatch i ((take s).inst i).st v) hd fun es n cs => ?_
    simp [runHandler, htake, hsel, hj]
  | some j =>
    obtain ⟨e, c, hc⟩ : ∃ e c, transitionOf e c v = some j := by
      cases he : engineOf i ((take s).inst i).role with
      | none => simp [selectTransition, he] at hj
      | some e => exact ⟨e, _, (selectTransition_eq (take s) i v he).symm.trans hj⟩
    have hrun : ∀ es n cs, runTransition i v j ((take s).aside es n cs) = exec j ((take s).aside es n cs) :=
      fun es n cs => runTransition_eq_exec hc i v _
    cases hexec e c j hc with
    | @next t l k played hl hp h =>
      refine .next (t := detectEdges s t) (k := k) (hslots ▸ hl) hp fun es n cs => ?_
      simp [runHandler, htake, hsel, hj, hrun, h, detectEdges_aside]
    | @fault r _ h => exact .fault (r := r) hd fun es n cs => by simp [runHandler, htake, hsel, hj, hrun, h]
    | @refused r h => exact .refused (r := r) fun es n cs => by simp [runHandler, htake, hsel, hj, hrun, h]

end Combinators

end Sys2Proof.Machine
end

section
/-!
PROOF. Every operation and every step is blind to the ghost trace, `now` and `script` (spec/60_exceptions.md R255, R256;
10_state.md R26), and under the invariant no step faults and the block never halts (R259).
-/

namespace Sys2Proof.Machine

open Sys2Proof

variable {s t : State} {j : Instr} {e : Engine} {c : St} {v : Ev} {w : Code} {rest : List Code}

/-! ## Every operation -/

theorem blind_p2dUnlessContention {body : State → State}
    (h : ∀ es n cs, body (s.aside es n cs) = (body s).aside es n cs) :
    Blind (transition .P .device c (p2dUnlessContention body)) s :=
  blind_transition (adds_events (fun _ => length_ite_le (by simp) (by simp)) fun es n cs =>
    p2dUnlessContention_aside s es n cs (h es n cs))

theorem blind_p2hTimeout : Blind (transition .P .host c p2hTimeout) s :=
  blind_transition (adds_events (by simp) (p2hTimeout_aside s))

/-- A transition alone. -/
theorem blind_transitionOf (h : transitionOf e c v = some j) (s : State) : Blind (exec j) s := by
  cases e <;> cases c <;> cases v <;> cases h
  -- PS/2 host
  case p2h.idle.edge | p2h.prepStart.tmr | p2h.getParity.edge | p2h.sendParity.edge =>
    exact blind_transition (adds_nothing fun _ _ _ => rfl)
  case p2h.sendStart.edge => exact blind_transition (adds_nothing fun es n cs => by simp [p2hSendStartEdge])
  case p2h.sendBit.edge => exact blind_transition (adds_nothing (p2hSendBitEdge_aside s))
  case p2h.sendStop.edge =>
    exact blind_transition (adds_events (fun _ => length_ite_le (by simp) (by simp)) (p2hSendStopEdge_aside s))
  case p2h.getBit.edge => exact blind_transition (adds_nothing (p2hGetBitEdge_aside s))
  case p2h.waitStop.edge =>
    exact blind_transition (adds_events (fun _ => overflows_length_le _ _ _) (p2hWaitStopEdge_aside s))
  case p2h.getAck.tmr => exact blind_transition (adds_nothing fun es n cs => by simp [p2hGetAckTmr])
  case p2h.sendBit.tmr | p2h.sendParity.tmr | p2h.sendStop.tmr | p2h.getBit.tmr | p2h.getParity.tmr
    | p2h.waitStop.tmr => exact blind_p2hTimeout
  -- PS/2 device
  case p2d.prepStart.tmr | p2d.sendStart.tmr | p2d.sendBit.tmr | p2d.sendParity.tmr | p2d.sendStop.tmr =>
    exact blind_p2dUnlessContention fun _ _ _ => rfl
  case p2d.hostInhibit.edge => exact blind_transition (adds_nothing (p2dCheckBus_aside s))
  case p2d.prepBit.tmr => exact blind_transition (adds_nothing (p2dPrepBitTmr_aside s))
  case p2d.prepParity.tmr => exact blind_transition (adds_nothing (p2dPrepParityTmr_aside s))
  case p2d.holdoff.tmr => exact blind_transition (adds_nothing (p2dHoldoffTmr_aside s))
  case p2d.getAck.tmr =>
    exact blind_transition (adds_events (fun _ => overflows_length_le _ _ _) (p2dGetAckTmr_aside s))
  case p2d.idle.edge | p2d.prepStop.tmr | p2d.waitStart.tmr | p2d.getStart.tmr | p2d.waitBit.tmr | p2d.getBit.tmr
    | p2d.getParity.tmr | p2d.waitStop.tmr | p2d.waitAck.tmr =>
    exact blind_transition (adds_nothing fun _ _ _ => rfl)
  -- XT host
  case xth.idle.edge =>
    exact blind_transition (adds_events (fun _ => length_ite_le (overflows_length_le _ _ _) (by simp))
      (xthGetBitEdge_aside (frameStart .X 0 s)))
  case xth.getBit.edge =>
    exact blind_transition (adds_events (fun _ => length_ite_le (overflows_length_le _ _ _) (by simp))
      (xthGetBitEdge_aside s))
  case xth.getBit.tmr => exact blind_transition (adds_events (by simp) (xthGetBitTmr_aside s))
  case xth.reset.tmr => exact blind_transition (adds_nothing (xthResetTmr_aside s))
  -- XT device
  case xtd.idle.edge => exact blind_transition (adds_nothing (xtdInhibit_aside s))
  case xtd.hostInhibit.tmr =>
    exact blind_transition (adds_events (fun h => length_ite_le (countInhibitEvents_length_le s h) (by simp))
      (xtdHostInhibitTmr_aside s))
  case xtd.sendStart.tmr =>
    exact blind_transition (adds_events (fun _ => length_ite_le (by simp) (by simp)) (xtdSendStartTmr_aside s))
  case xtd.sendBit.tmr =>
    exact blind_transition (adds_events (fun _ => length_ite_le (by simp) (by simp)) (xtdSendBitTmr_aside s))
  case xtd.prepBit.tmr => exact blind_transition (adds_nothing (xtdPrepBitTmr_aside s))
  case xtd.holdoff.tmr => exact blind_transition (adds_nothing (xtdHoldoffTmr_aside s))

theorem blind_execIrqEdge (i : Inst) (s : State) : Blind (exec (.irqEdge i)) s := by
  by_cases hd : deliverable s = some (.edge i)
  · have hne : deliverable s ≠ none := by simp [hd]
    exact (blind_runHandler (i := i) (take := takeEdge i) hne (by simp) (by simp)
      fun e c j h => blind_transitionOf h _).congr fun es n cs => exec_irqEdge hd
  · exact .refused fun es n cs => if_neg hd

theorem blind_execIrqTmr (s : State) : Blind (exec .irqTmr) s := by
  by_cases hd : deliverable s = some .timer
  · have hne : deliverable s ≠ none := by simp [hd]
    obtain ⟨i, ho⟩ := exists_owner_of_timer hd
    exact (blind_runHandler (i := i) (take := takeTimer) hne (by simp) (by simp)
      fun e c j h => blind_transitionOf h _).congr fun es n cs => exec_irqTmr hd ho
  · exact .refused fun es n cs => if_neg hd

theorem blind_of_key {k : Byte} (hk : encode j = .key k) (s : State) : Blind (exec j) s := by
  obtain ⟨e, c, v, hj⟩ := exists_triple_of_key hk
  exact blind_transitionOf hj s

/-- No operation reads the ghost trace, `now` or `script` (R255, R26). -/
theorem blind_exec (j : Instr) (s : State) : Blind (exec j) s := by
  cases j
  case lineAssert b =>
    exact blind_asStep (adds_nothing fun es n cs => lineCommand_aside s es n cs b .low fun _ _ => rfl)
  case lineRelease b =>
    exact blind_asStep (adds_nothing fun es n cs => lineCommand_aside s es n cs b .rel fun _ _ => rfl)
  case lineRead b => exact blind_asStep (adds_nothing fun es n cs => lineReadCommand_aside s es n cs b)
  case tmrArm d => exact blind_asStep (adds_nothing fun es n cs => tmrArmCommand_aside s es n cs d)
  case tmrDisable => exact blind_asStep (adds_nothing (tmrDisableCommand_aside s))
  case edgeSet i m => exact blind_asStep (adds_nothing fun es n cs => edgeSetCommand_aside s es n cs i m)
  case edgeStatus i => exact blind_asStep (adds_nothing fun es n cs => by simp)
  case pInit rr => exact blind_asStep (adds_nothing fun es n cs => initCommand_aside s es n cs .P rr)
  case xInit rr => exact blind_asStep (adds_nothing fun es n cs => initCommand_aside s es n cs .X rr)
  case pPut b => exact blind_asStep (adds_nothing fun es n cs => putCommand_aside s es n cs .P b)
  case xPut b => exact blind_asStep (adds_nothing fun es n cs => putCommand_aside s es n cs .X b)
  case pGet => exact blind_asStep (adds_nothing fun es n cs => getCommand_aside s es n cs .P)
  case xGet => exact blind_asStep (adds_nothing fun es n cs => getCommand_aside s es n cs .X)
  case pReset => exact blind_asStep (adds_nothing fun es n cs => resetCommand_aside s es n cs .P)
  case xReset => exact blind_asStep (adds_nothing fun es n cs => resetCommand_aside s es n cs .X)
  case tmrStatus | pRxcount | pTxcount | pState | xRxcount | xTxcount | xState =>
    exact blind_asStep (adds_nothing fun _ _ _ => rfl)
  case xHreset => exact blind_asStep (adds_nothing (hresetCommand_aside s))
  case cfgWr r b => exact blind_asStep (adds_nothing fun es n cs => cfgWrCommand_aside s es n cs r b)
  case cfgRd r => exact blind_asStep (adds_nothing fun es n cs => cfgRdCommand_aside s es n cs r)
  case envTick => exact blind_asStep adds_tick
  case envLow l => exact blind_farEnd l .low
  case envRel l => exact blind_farEnd l .rel
  case irqEdge i => exact blind_execIrqEdge i s
  case irqTmr => exact blind_execIrqTmr s
  case framePs2D2h v h => exact blind_asStep (adds_play (all_inputOk_envPs2D2h v h))
  case framePs2H2d v h =>
    exact (blind_asStep (adds_play (all_inputOk_envPs2H2d v h (s.cfg.get .ps2hInhibitUs).toNat))).congr
      fun _ _ _ => rfl
  case frameXtD2h v h => exact blind_asStep (adds_play (all_inputOk_envXtD2h v h))
  -- the 45 dispatch keys
  all_goals exact blind_of_key rfl s

/-! ## Every step -/

/-- A step is a blind operation on the state without the word it takes off `script`, if it takes one. -/
theorem exists_blind_step (s : State) : ∃ f rest, Blind f s ∧ (ScriptOk s → rest.all inputOk = true) ∧
    ∀ es n, step (s.aside es n s.script) = f (s.aside es n rest) := by
  cases hd : deliverable s with
  | some m =>
    cases m with
    | edge i => exact ⟨_, _, blind_exec (.irqEdge i) s, id, fun es n => step_of_edge hd⟩
    | timer => exact ⟨_, _, blind_exec .irqTmr s, id, fun es n => step_of_timer hd⟩
  | none =>
    cases hs : s.script with
    | nil => exact ⟨_, [], blind_exec .envTick s, fun _ => rfl, fun es n => step_of_idle hd rfl⟩
    | cons w rest =>
      have hrest : ScriptOk s → rest.all inputOk = true := by
        intro h
        rw [ScriptOk, hs, List.all_cons, Bool.and_eq_true] at h
        exact h.2
      by_cases hk : ∃ k, w = .key k
      · obtain ⟨k, rfl⟩ := hk
        exact ⟨fun _ => .refused .notEnabled, rest, .refused fun _ _ _ => rfl, hrest, fun es n => step_key hd rfl⟩
      · have hk : ∀ k, w ≠ .key k := not_exists.mp hk
        cases hw : decode w with
        | ok j => exact ⟨_, rest, blind_exec j s, hrest, fun es n => step_of_decode hd rfl hk hw⟩
        | error d =>
          by_cases hc : ∃ a, w = .command a
          · obtain ⟨a, rfl⟩ := hc
            refine ⟨fun s => .next (refuse s), rest, ?_, hrest, fun es n => step_command_error hd rfl hw⟩
            exact .next (l := []) (k := 0) (played := []) (by simp) rfl fun es n cs => by
              rw [refuse_aside, List.append_nil]; rfl
          · exact ⟨fun _ => .refused (.noSuchEvent d), rest, .refused fun _ _ _ => rfl, hrest,
              fun es n => step_of_decode_error hd rfl hk (not_exists.mp hc) hw⟩

/-- Settles O57: the step is a blind operation, run with one trace and time and with another. -/
theorem traceAndTimeAreReadByNoRule : Obligations.TraceAndTimeAreReadByNoRule := by
  intro s es n
  obtain ⟨f, rest, hb, -, hstep⟩ := exists_blind_step s
  have hs : step s = f (s.aside s.events s.now rest) := hstep s.events s.now
  have hu : step { s with events := es, now := n } = f (s.aside es n rest) := hstep es n
  rw [hs, hu]
  cases hb with
  | next hl hp h => rw [h, h]; rfl
  | fault hd h => rw [h, h]
  | refused h => rw [h, h]

/-- What a step that completes has added to the ghost trace and left in `script`. -/
theorem step_adds (h : step s = .next t) :
    ∃ l, t.events = s.events ++ l ∧ (2 ≤ s.slots → l.length ≤ 1) ∧ (ScriptOk s → ScriptOk t) := by
  obtain ⟨f, rest, hb, hrest, hstep⟩ := exists_blind_step s
  have hs : step s = f (s.aside s.events s.now rest) := hstep s.events s.now
  rw [h] at hs
  cases hb with
  | @next u l k played hl hp hf =>
    rw [hf] at hs
    cases hs
    refine ⟨l, rfl, hl, fun hok => ?_⟩
    simp only [ScriptOk, aside_script, List.all_append, hp, hrest hok, Bool.and_self]
  | fault hd hf => rw [hf] at hs; cases hs
  | refused hf => rw [hf] at hs; cases hs

/-- Settles O58: a step adds at most one event to the trace. -/
theorem atMostOneEventPerStep : Obligations.AtMostOneEventPerStep := by
  intro s t hslots h
  obtain ⟨l, hevents, hl, -⟩ := step_adds h
  cases l with
  | nil => exact .inl (by simpa using hevents)
  | cons e l =>
    obtain rfl : l = [] := by simpa using hl hslots
    exact .inr ⟨e, hevents⟩

/-! ## The block never halts -/

/-- A step faults only while a notification is deliverable. -/
theorem deliverable_of_fault {f : Fault} (h : step s = .fault f) : deliverable s ≠ none := by
  obtain ⟨g, rest, hb, -, hstep⟩ := exists_blind_step s
  have hs : step s = g (s.aside s.events s.now rest) := hstep s.events s.now
  rw [h] at hs
  cases hb with
  | next hl hp hg => rw [hg] at hs; cases hs
  | fault hd hg => exact hd
  | refused hg => rw [hg] at hs; cases hs

/-- A word that can be issued, if it is no command, decodes. -/
theorem decode_error_of_inputOk {d : DecodeError} (hw : inputOk w = true) (h : decode w = .error d) :
    ∃ a, w = .command a := by
  cases w with
  | command a => exact ⟨a, rfl⟩
  | key k => cases hw
  | event a => simp [inputOk, h] at hw
  | frame f symbols half => simp [inputOk, h] at hw

/-- A word that can be issued is a step when nothing is deliverable. -/
theorem step_of_inputOk (hd : deliverable s = none) (hs : s.script = w :: rest) (hw : inputOk w = true) :
    ∃ t, step s = .next t := by
  cases hdec : decode w with
  | ok j =>
    have hk : ∀ k, w ≠ .key k := by
      rintro k rfl
      cases hw
    obtain rfl : encode j = w := encodeOfDecode w j hdec
    obtain ⟨body, hbody⟩ := exists_exec_eq_asStep_of_inputOk j hw
    exact ⟨_, (step_of_decode hd hs hk hdec).trans ((hbody _).trans (asStep_enabled _ body hd))⟩
  | error d =>
    obtain ⟨a, rfl⟩ := decode_error_of_inputOk hw hdec
    exact ⟨_, step_command_error hd hs hdec⟩

/-- Under the invariant, with words in `script` that can be issued, every step completes. -/
theorem exists_step (hs : BlockInv s) (hok : ScriptOk s) : ∃ t, step s = .next t := by
  by_cases hd : deliverable s = none
  case neg => exact step_handler hs hd
  case pos =>
    cases hscript : s.script with
    | nil => exact ⟨_, (step_of_idle hd hscript).trans (asStep_enabled s tick hd)⟩
    | cons w rest =>
      rw [ScriptOk, hscript, List.all_cons, Bool.and_eq_true] at hok
      exact step_of_inputOk hd hscript hok.1

/-- Settles O53: a fault would be a handler's, and under the invariant every handler completes. -/
theorem spuriousDispatchUnreachable : Obligations.SpuriousDispatchUnreachable := by
  intro s hs
  refine ⟨fun f h => ?_, fun hok => ?_⟩
  · obtain ⟨t, ht⟩ := step_handler hs (deliverable_of_fault h)
    cases h.symm.trans ht
  · obtain ⟨t, ht⟩ := exists_step hs hok
    obtain ⟨-, -, -, hkept⟩ := step_adds ht
    exact ⟨t, ht, hkept hok⟩

end Sys2Proof.Machine
end
